-- ==== Sys2Proof/Word.lean ====
section
/-! DEFINITION. The words of SAF: bytes, one-bit levels, operation words, command frames, and the stimuli
the environment gives the block (spec/30_encoding.md R80, R85, R88). -/

namespace Sys2Proof

/-- One byte of a buffer or of the serial link (R40, R62). -/
abbrev Byte := BitVec 8

/-- A level on a wire, or one draw (R11). -/
abbrev Level := BitVec 1

/-- The operation word on the control port: `op` in bits 7:5, `arg` in bits 4:0 (R80). -/
abbrev OpWord := BitVec 8

/-- A serial command frame as one number: index 0 in bits 31:24, index 3 in bits 7:0 (R88). -/
abbrev Frame := BitVec 32

/-- The strobe events, each one wire with no operand (R85). -/
inductive Strobe where
  | tick | txPop | wakeFire | htRelease | reset | pollStep
deriving DecidableEq, Repr

/-- What the environment can give SAF next: a word on the control port (R80) or an event (R85). -/
inductive Stimulus where
  /-- One operation word presented on the control port. -/
  | request (w : OpWord)
  /-- One strobe wire asserted. -/
  | strobe (line : Strobe)
  /-- The byte the transport has received. -/
  | rxByte (b : Byte)
  /-- A step of LCSER with the level of the load-cell data wire. -/
  | lcStep (d : Level)
  /-- A step of HTRX with the level of the humidity wire. -/
  | htStep (l : Level)
deriving DecidableEq, Repr

/-- The words an instruction is decoded from: a stimulus, or the four bytes of a command frame. -/
inductive Code where
  | stimulus (x : Stimulus)
  | frame (w : Frame)
deriving DecidableEq, Repr

/-- Four bytes, index 0 first, as one frame (R88). -/
def Frame.ofBytes (b0 b1 b2 b3 : Byte) : Frame := b0 ++ b1 ++ b2 ++ b3

end Sys2Proof
end

