-- ==== Sys2Proof/Syntax.lean ====
section
/-! DEFINITION. The instructions of SAF: one constructor per row of spec/opcode_table.json
(30_encoding.md R82 the operation requests, R85 the events, R90 the command frames). -/

namespace Sys2Proof

/-- The operation requests, events and command frames of SAF operation set 1 (R4). -/
inductive Instr where
  /-- LC.READ g, any five-bit `g`; a gain outside 25, 26, 27 is refused when taken (R84, R100). -/
  | lcRead (g : BitVec 5)
  /-- HT.START (R120). -/
  | htStart
  /-- HT.READ (R126). -/
  | htRead
  /-- FMT.ENC (R178). -/
  | fmtEnc
  /-- CMD.TAKE (R205). -/
  | cmdTake
  /-- SEQ.STEP (R151). -/
  | seqStep
  /-- POLL (R160). -/
  | poll
  /-- TICK (R150). -/
  | tick
  /-- RX.BYTE b (R200). -/
  | rxByte (b : Byte)
  /-- TX.POP (R190). -/
  | txPop
  /-- WAKE.FIRE (R125). -/
  | wakeFire
  /-- HT.RELEASE (R124). -/
  | htRelease
  /-- RESET (R250). -/
  | reset
  /-- LC.STEP with the level of the load-cell data wire (R103 to R105; log 11). -/
  | lcStep (d : Level)
  /-- HT.STEP with the level of the humidity wire (R130, R134). -/
  | htStep (l : Level)
  /-- POLL.STEP (R161). -/
  | pollStep
  /-- Command Q, quit/halt, with its three uninterpreted bytes (R211). -/
  | cmdQ (d2 d1 d0 : Byte)
  /-- Command S, stop (R207). -/
  | cmdS (d2 d1 d0 : Byte)
  /-- Command F, forward, with its three digit bytes (R208). -/
  | cmdF (d2 d1 d0 : Byte)
  /-- Command R, reverse (R212). -/
  | cmdR (d2 d1 d0 : Byte)
  /-- Command G, go (R213). -/
  | cmdG (d2 d1 d0 : Byte)
  /-- Command M, spray-on (R214). -/
  | cmdM (d2 d1 d0 : Byte)
  /-- Command N, spray-off (R215). -/
  | cmdN (d2 d1 d0 : Byte)
deriving DecidableEq, Repr

end Sys2Proof
end

