-- ==== Sys2Proof/Decode.lean ====
section
/-! DEFINITION. The decoder and the encoder, from the encoding tables of spec/30_encoding.md: the
operation word (R80 to R84), the events (R85), the command frame (R88 to R90). -/

namespace Sys2Proof

/-- Why no instruction has these words. -/
inductive DecodeError where
  /-- A reserved operation word: `op` is 0, or `arg` is not 0 where it must be (R83, U1). -/
  | reservedWord (w : OpWord)
  /-- A frame whose leading byte is not in CMDSET: MalformedCommand when it is dispatched (R216). -/
  | unknownCommand (c : Byte)
deriving DecidableEq, Repr

/-- The operation word of fields `op` and `arg` (R80). -/
def opWord (op : BitVec 3) (arg : BitVec 5) : OpWord := op ++ arg

/-- The operation map of R82; every other word is reserved (R83). -/
def decodeRequest (w : OpWord) : Except DecodeError Instr :=
  let op := w.extractLsb' 5 3
  let arg := w.extractLsb' 0 5
  if op = 1 then .ok (.lcRead arg)
  else if arg ≠ 0 then .error (.reservedWord w)
  else if op = 2 then .ok .htStart
  else if op = 3 then .ok .htRead
  else if op = 4 then .ok .fmtEnc
  else if op = 5 then .ok .cmdTake
  else if op = 6 then .ok .seqStep
  else if op = 7 then .ok .poll
  else .error (.reservedWord w)

/-- The strobe events (R85). -/
def decodeStrobe : Strobe → Instr
  | .tick => .tick
  | .txPop => .txPop
  | .wakeFire => .wakeFire
  | .htRelease => .htRelease
  | .reset => .reset
  | .pollStep => .pollStep

/-- A stimulus as an instruction: events have no operation word and are never rejected (R85). -/
def decodeStimulus : Stimulus → Except DecodeError Instr
  | .request w => decodeRequest w
  | .strobe line => .ok (decodeStrobe line)
  | .rxByte b => .ok (.rxByte b)
  | .lcStep d => .ok (.lcStep d)
  | .htStep l => .ok (.htStep l)

/-- CMDSET: Q, S, F, R, G, M, N (R6, R200). -/
def inCmdSet (b : Byte) : Bool :=
  b = 0x51 || b = 0x53 || b = 0x46 || b = 0x52 || b = 0x47 || b = 0x4D || b = 0x4E

/-- The command map of R90, on the four bytes of a frame, index 0 first. -/
def decodeBytes (c d2 d1 d0 : Byte) : Except DecodeError Instr :=
  if c = 0x51 then .ok (.cmdQ d2 d1 d0)
  else if c = 0x53 then .ok (.cmdS d2 d1 d0)
  else if c = 0x46 then .ok (.cmdF d2 d1 d0)
  else if c = 0x52 then .ok (.cmdR d2 d1 d0)
  else if c = 0x47 then .ok (.cmdG d2 d1 d0)
  else if c = 0x4D then .ok (.cmdM d2 d1 d0)
  else if c = 0x4E then .ok (.cmdN d2 d1 d0)
  else .error (.unknownCommand c)

/-- Byte `i` of a frame, index 0 in bits 31:24 (R88). -/
def frameByte (w : Frame) (i : Nat) : Byte := w.extractLsb' (24 - 8 * i) 8

/-- A command frame as an instruction (R88, R90). -/
def decodeFrame (w : Frame) : Except DecodeError Instr :=
  decodeBytes (frameByte w 0) (frameByte w 1) (frameByte w 2) (frameByte w 3)

/-- The decoder: total, and it rejects by name. -/
def decode : Code → Except DecodeError Instr
  | .stimulus x => decodeStimulus x
  | .frame w => decodeFrame w

/-- The words of an instruction (R82, R85, R90). -/
def encode : Instr → Code
  | .lcRead g => .stimulus (.request (opWord 1 g))
  | .htStart => .stimulus (.request (opWord 2 0))
  | .htRead => .stimulus (.request (opWord 3 0))
  | .fmtEnc => .stimulus (.request (opWord 4 0))
  | .cmdTake => .stimulus (.request (opWord 5 0))
  | .seqStep => .stimulus (.request (opWord 6 0))
  | .poll => .stimulus (.request (opWord 7 0))
  | .tick => .stimulus (.strobe .tick)
  | .rxByte b => .stimulus (.rxByte b)
  | .txPop => .stimulus (.strobe .txPop)
  | .wakeFire => .stimulus (.strobe .wakeFire)
  | .htRelease => .stimulus (.strobe .htRelease)
  | .reset => .stimulus (.strobe .reset)
  | .lcStep d => .stimulus (.lcStep d)
  | .htStep l => .stimulus (.htStep l)
  | .pollStep => .stimulus (.strobe .pollStep)
  | .cmdQ d2 d1 d0 => .frame (Frame.ofBytes 0x51 d2 d1 d0)
  | .cmdS d2 d1 d0 => .frame (Frame.ofBytes 0x53 d2 d1 d0)
  | .cmdF d2 d1 d0 => .frame (Frame.ofBytes 0x46 d2 d1 d0)
  | .cmdR d2 d1 d0 => .frame (Frame.ofBytes 0x52 d2 d1 d0)
  | .cmdG d2 d1 d0 => .frame (Frame.ofBytes 0x47 d2 d1 d0)
  | .cmdM d2 d1 d0 => .frame (Frame.ofBytes 0x4D d2 d1 d0)
  | .cmdN d2 d1 d0 => .frame (Frame.ofBytes 0x4E d2 d1 d0)

/-- One row of spec/opcode_table.json: the encoding space and, where the row has them, its mask and match. -/
inductive Row where
  /-- An OPREQ row, eight bits. -/
  | opreq (mask bits : OpWord)
  /-- A CMDF row, 32 bits. -/
  | cmdf (mask bits : Frame)
  /-- An EVENT row: a wire of its own, no operation word (R85). -/
  | event
deriving DecidableEq, Repr

/-- The table's row of each instruction. -/
def rowOf : Instr → Row
  | .lcRead _ => .opreq 0xE0 0x20
  | .htStart => .opreq 0xFF 0x40
  | .htRead => .opreq 0xFF 0x60
  | .fmtEnc => .opreq 0xFF 0x80
  | .cmdTake => .opreq 0xFF 0xA0
  | .seqStep => .opreq 0xFF 0xC0
  | .poll => .opreq 0xFF 0xE0
  | .tick | .rxByte _ | .txPop | .wakeFire | .htRelease | .reset => .event
  | .lcStep _ | .htStep _ | .pollStep => .event
  | .cmdQ _ _ _ => .cmdf 0xFF000000 0x51000000
  | .cmdS _ _ _ => .cmdf 0xFF000000 0x53000000
  | .cmdF _ _ _ => .cmdf 0xFF000000 0x46000000
  | .cmdR _ _ _ => .cmdf 0xFF000000 0x52000000
  | .cmdG _ _ _ => .cmdf 0xFF000000 0x47000000
  | .cmdM _ _ _ => .cmdf 0xFF000000 0x4D000000
  | .cmdN _ _ _ => .cmdf 0xFF000000 0x4E000000

/-- Whether words fit a row of the table: their fixed bits are the row's, in the row's space. -/
def Row.fits : Row → Code → Bool
  | .opreq mask bits, .stimulus (.request w) => w &&& mask = bits
  | .cmdf mask bits, .frame w => w &&& mask = bits
  | .event, .stimulus (.request _) => false
  | .event, .stimulus _ => true
  | _, _ => false

/-- The instruction of a row of the opcode table whose bits are `w`, numbered as the table numbers them.
Eight bits are an operation word; 32 bits are a command frame, its first byte in bits 31:24 (R88).
Event rows have no word of bits (R85), so no number stands for one (log 16). -/
def decodeTableWord (nbits w : Nat) : Option Instr :=
  if nbits = 8 ∧ w < 2 ^ 8 then (decode (.stimulus (.request (BitVec.ofNat 8 w)))).toOption
  else if nbits = 32 ∧ w < 2 ^ 32 then (decode (.frame (BitVec.ofNat 32 w))).toOption
  else none

end Sys2Proof
end

