-- ==== Sys2Proof/Config.lean ====
section
/-! DEFINITION. What one SAF block fixes: the constants of spec/00_scope.md R6, the open parameters of R7
as a record, and the values the spec leaves open (93_implementation_defined.md U4, U6, U12). -/

namespace Sys2Proof

/-! ## Constants of R6 -/

/-- LC_BITS: data bits per load-cell sample. -/
def lcBits : Nat := 24
/-- HT_BITS: bits per humidity frame. -/
def htBits : Nat := 40
/-- CMD_LEN: bytes per command frame (D28). -/
def cmdLen : Nat := 4
/-- LOAD_W: characters of the load field. -/
def loadW : Nat := 8
/-- HUM_W: characters of the humidity field. -/
def humW : Nat := 2
/-- TERM_W: bytes of the line terminator. -/
def termW : Nat := 2
/-- PCT_MAX: the largest percentage. -/
def pctMax : Nat := 100
/-- PLACEHOLDER `X`. -/
def placeholder : Byte := 0x58
/-- ERRMARK `E`. -/
def errMark : Byte := 0x45

/-- GAIN_SET: the legal gains, each the total pulse count of a read (R6, 90_conflicts.md C3). -/
def gainLegal (g : BitVec 5) : Bool := g = 25 || g = 26 || g = 27

/-! ## Parameters of R7 -/

/-- The field types of a telemetry LAYOUT (R177).
There is no other type, so a voltage field cannot be named (U13). -/
inductive Field where
  | load | hum | temp | sep | term
deriving DecidableEq, Repr

/-- The open parameters of R7, constants of one block.
T_THRESH has no field: the spec does not model it (R7, D14; log 15). -/
structure Config where
  /-- LC_TIMEOUT; `none` is the infinite value, the source's behaviour (D6). -/
  lcTimeout : Option Nat
  /-- DRDY_ACTIVE: the level that means data ready (D4). -/
  drdyActive : Level
  /-- T_WAKE in microseconds (D11); only R262's constraint rests on it (log 15). -/
  tWakeUs : Nat
  /-- T_HOLD in microseconds (D10); only R262's constraint rests on it (log 15). -/
  tHoldUs : Nat
  /-- HT_TO (D13). -/
  htTo : Nat
  /-- N_REST (D19). -/
  nRest : Nat
  /-- CAD_THRESH (D20). -/
  cadThresh : Nat
  /-- POLL_GAIN (D21). -/
  pollGain : BitVec 5
  /-- SEP (D22). -/
  sep : Byte
  /-- TERM[0] (D22). -/
  term0 : Byte
  /-- TERM[1] (D22). -/
  term1 : Byte
  /-- TEMP_W (D23). -/
  tempW : Nat
  /-- TSIGN_POS (D23). -/
  tsignPos : Byte
  /-- LAYOUT (D39). -/
  layout : List Field
deriving DecidableEq, Repr

/-- The defaults of R7, the spec's own choice for its test vectors (log 19). -/
def Config.default : Config where
  lcTimeout := none
  drdyActive := 0
  tWakeUs := 18000
  tHoldUs := 18000
  htTo := 100
  nRest := 10
  cadThresh := 10
  pollGain := 25
  sep := 0x2C
  term0 := 0x0D
  term1 := 0x0A
  tempW := 3
  tsignPos := 0x2B
  layout := [.load, .sep, .hum, .sep, .temp, .sep, .term]

/-- The width of a field (R177). -/
def Config.fieldWidth (c : Config) : Field → Nat
  | .load => loadW
  | .hum => humW
  | .temp => c.tempW
  | .sep => 1
  | .term => termW

/-- FRAME_W: the sum of the widths in LAYOUT (R7). -/
def Config.frameW (c : Config) : Nat := (c.layout.map c.fieldWidth).sum

/-- R177: exactly one LOAD, at most one HUM, at most one TEMP, and the last field the one TERM. -/
def Config.layoutLegal (c : Config) : Bool :=
  c.layout.count .load = 1 && c.layout.count .hum ≤ 1 && c.layout.count .temp ≤ 1 &&
    c.layout.count .term = 1 && c.layout.getLast? = some .term

/-- The constraints R7 puts on the parameters: which records are instances of SAF (U12, U13). -/
def Config.legal (c : Config) : Bool :=
  c.lcTimeout ≠ some 0 && 18000 ≤ c.tWakeUs && c.tWakeUs ≤ 20000 && 0 < c.tHoldUs &&
    c.tHoldUs ≤ c.tWakeUs && 0 < c.htTo && 0 < c.nRest && 0 < c.cadThresh &&
    gainLegal c.pollGain && c.layoutLegal

/-! ## Free values -/

/-- A value of `w` bits the spec leaves open: any value (U4, U6; log 7, log 8).
It has no body to rest on; the step numbers the values it uses with `State.fresh`. -/
opaque Config.freeValue (w : Nat) (n : Nat) : BitVec w

/-- Which character of a frame stands at byte `i` of a valid TEMP field whose width `w` is not 3, for the
temperature byte `t`: R184 gives the characters for three bytes only, R187 the set they are from (log 14). -/
opaque Config.freeTempChar (w : Nat) (t : Byte) (i : Nat) : Nat

end Sys2Proof
end

