-- ==== Sys2Proof/Machine/State.lean ====
section
/-! DEFINITION. The state of SAF (spec/10_state.md): the 40 registers of R21, the three byte memories of
R40, and the model's own fields for the parameters, the schedule, the control port and the output events. -/

namespace Sys2Proof.Machine

/-- lc_state (R26). -/
inductive LcState where
  | idle | wait | shift | gain
deriving DecidableEq, Repr

/-- LC_STATUS (R26); the reserved code 3 is never written and has no name here (U3). -/
inductive LcStatus where
  | none | ok | notReady
deriving DecidableEq, Repr

/-- ht_state (R28); the reserved codes 9 to 15 have no name here (U3). -/
inductive HtState where
  | idle | hold | armed | w1 | w2 | w3 | bwh | bsmp | bwl
deriving DecidableEq, Repr

/-- HT_STATUS (R28). -/
inductive HtStatus where
  | none | ok | timeout | checksum
deriving DecidableEq, Repr

/-- th_state, SamplingState, in the order of its codes (R32, D17). -/
inductive ThState where
  | awaitingWake | sampling | waitingWake | waitingRest
deriving DecidableEq, Repr

/-- poll_phase (R32); the reserved codes 5 to 7 have no name here (U3). -/
inductive PollPhase where
  | idle | seq | lc | enc | cmd
deriving DecidableEq, Repr

/-- act_class (R35); the reserved codes 6 and 7 have no name here (U3). -/
inductive ActClass where
  | none | halt | stop | setpoint | sprayOn | sprayOff
deriving DecidableEq, Repr

/-- OP_RESP (R38). -/
inductive OpResp where
  | accepted | refusedReserved | refusedGain | refusedState
deriving DecidableEq, Repr

/-- The six error conditions of R225, in the order of their codes. -/
inductive ErrorCause where
  | sensorTimeout | checksumMismatch | malformedCommand | sensorNotReady | illegalGain | opRefused
deriving DecidableEq, Repr

/-- The three memories of R40, each its own address space. -/
inductive Space where
  | rxBuf | cmdHold | txBuf
deriving DecidableEq, Repr

/-- What SAF emits to the environment at the end of a step (R10). -/
inductive OutEvent where
  /-- Clock pulse number `k` of a load-cell read (R102). -/
  | lcPulse (k : Nat)
  /-- The wake timer is to be armed (R121). -/
  | htArm
  /-- The rest signal of a successful humidity read (R137). -/
  | htRest
  /-- One byte handed to the transport (R190). -/
  | txByte (b : Byte)
  /-- A decoded command handed to the actuator driver: the new values of act_class, act_letter, act_pct
  and act_pct_ok (R210). -/
  | actCmd (cls : ActClass) (letter : Byte) (pct : BitVec 7) (ok : Bool)
deriving DecidableEq, Repr

/-- A byte memory: the bytes that hold a value, at strictly rising indices.
An index that is not listed holds no value (R50, R52; log 9). -/
abbrev Memory := List Host.Cell

/-- Why the machine stops.
Both are unreachable from RESET (R52, R63) and are safe. -/
inductive Fault where
  /-- An access to an index outside its buffer, raised by RX.BYTE and TX.POP (R63; log 10).
  Safe: the machine stops. -/
  | outsideBuffer (space : Space) (index : Nat)
  /-- A read of a byte that holds no value, raised by TX.POP and by CMD.TAKE, also inside
  POLL.STEP (R52; log 9).
  Safe: the machine stops. -/
  | noValue (space : Space) (index : Nat)
deriving DecidableEq, Repr

/-- Why an instruction has no meaning. -/
inductive Refusal where
  /-- An instruction that is not modelled, raised by exec's own arm.
  Safe: nothing can be proved of a run past it.
  No arm raises it: every row of the table has its meaning. -/
  | notModelled (mnemonic : String)
deriving DecidableEq, Repr

/-- The state of SAF. The number of each register is its number in R21. -/
structure State where
  /-- 0 LC_RAW: the last completed sample as shifted in (R23). -/
  lcRaw : BitVec 24
  /-- 1 LC_NEG: its sign (R23). -/
  lcNeg : Bool
  /-- 2 LC_MAG: its magnitude (R23). -/
  lcMag : BitVec 24
  /-- 3 LC_GAIN_USED: the argument of the read that fetched it (R23, R258). -/
  lcGainUsed : BitVec 5
  /-- 4 LC_VALID: registers 0 to 3 hold a completed sample (R25). -/
  lcValid : Bool
  /-- 5 LC_STATUS: the outcome of the last LC.READ (R26). -/
  lcStatus : LcStatus
  /-- 6 lc_state (R26). -/
  lcState : LcState
  /-- 7 lc_shreg: the shift register (R104). -/
  lcShreg : BitVec 24
  /-- 8 lc_bitcnt: pulses issued in the current or last read (R24). -/
  lcBitcnt : BitVec 5
  /-- 9 lc_gain: the latched gain (R101). -/
  lcGain : BitVec 5
  /-- 10 lc_wait: not-ready samples seen; absent when LC_TIMEOUT is infinite (R21, R103; log 12). -/
  lcWait : Nat
  /-- 11 lc_sck: the level of the clock wire (R102). -/
  lcSck : Level
  /-- 12 HT_FRAME: the last valid humidity frame, byte 0 in bits 39:32 (R27). -/
  htFrame : BitVec 40
  /-- 13 HT_STATUS: the outcome of the last HT.READ (R28). -/
  htStatus : HtStatus
  /-- 14 ht_state (R28). -/
  htState : HtState
  /-- 15 ht_shreg: the shift register (R134). -/
  htShreg : BitVec 40
  /-- 16 ht_bitidx: bits received so far (R24). -/
  htBitidx : BitVec 6
  /-- 17 ht_to: non-matching samples in the current wait (R130; log 12). -/
  htTo : Nat
  /-- 18 ht_dir: 1 = SAF drives the humidity wire (R122). -/
  htDir : Level
  /-- 19 ht_out: the level driven when ht_dir = 1 (R122). -/
  htOut : Level
  /-- 20 wake_armed (R25). -/
  wakeArmed : Bool
  /-- 21 wake_fired (R25). -/
  wakeFired : Bool
  /-- 22 ht_new: a valid frame not yet sent is available (R25). -/
  htNew : Bool
  /-- 23 ht_fail: the most recent completed HT.READ failed (R25). -/
  htFail : Bool
  /-- 24 th_state: SamplingState (R32). -/
  thState : ThState
  /-- 25 rest_cnt: SEQ.STEPs seen in WaitingRest (R155; log 12). -/
  restCnt : Nat
  /-- 26 cad_cnt: the cadence counter (R150; log 12). -/
  cadCnt : Nat
  /-- 27 sample_now (R25). -/
  sampleNow : Bool
  /-- 28 poll_phase (R32). -/
  pollPhase : PollPhase
  /-- 29 suspended: main processing suspended by command Q (R211). -/
  suspended : Bool
  /-- 30 tx_idx: the next byte of TX_BUF to stream (R190; log 12). -/
  txIdx : Nat
  /-- 31 tx_busy (R25). -/
  txBusy : Bool
  /-- 32 rx_idx: where the next received byte is stored (R200). -/
  rxIdx : BitVec 3
  /-- 33 rx_eof: the end-of-frame signal (R200). -/
  rxEof : Bool
  /-- 34 act_class: the class of the last dispatched command (R35). -/
  actClass : ActClass
  /-- 35 act_letter: its leading byte (R35). -/
  actLetter : Byte
  /-- 36 act_pct: its percentage, unspecified when act_pct_ok = 0 (R35, R209; log 8). -/
  actPct : BitVec 7
  /-- 37 act_pct_ok (R25). -/
  actPctOk : Bool
  /-- 38 OP_RESP: the outcome of the last operation request taken (R38, R83). -/
  opResp : OpResp
  /-- 39 ERR_STICKY: one bit per error cause, cleared only by RESET (R38). -/
  errSticky : BitVec 6
  /-- RX_BUF, CMD_LEN bytes (R40). -/
  rxBuf : Memory
  /-- CMD_HOLD, CMD_LEN bytes (R40). -/
  cmdHold : Memory
  /-- TX_BUF, FRAME_W bytes (R40). -/
  txBuf : Memory
  /-- The model's own: the parameters of this block; no step changes them (R7, R20; log 1). -/
  cfg : Config
  /-- The model's own: the stimuli still to come, oldest first (log 2). -/
  inbox : List Stimulus
  /-- The model's own: the words waiting at the control port, oldest first (R9, R80; log 3). -/
  held : List OpWord
  /-- The model's own: the output events emitted so far, oldest first (R10; log 4). -/
  out : List OutEvent
  /-- The model's own: the number of the next free value (log 7). -/
  fresh : Nat
deriving DecidableEq, Repr

/-- The state of R50 for a block with parameters `c`.
A register R50 gives no value holds 0, the model's choice (log 6); no byte of memory holds a value. -/
def State.resetWith (c : Config) : State where
  lcRaw := 0
  lcNeg := false
  lcMag := 0
  lcGainUsed := 0
  lcValid := false
  lcStatus := .none
  lcState := .idle
  lcShreg := 0
  lcBitcnt := 0
  lcGain := 0
  lcWait := 0
  lcSck := 0
  htFrame := 0
  htStatus := .none
  htState := .idle
  htShreg := 0
  htBitidx := 0
  htTo := 0
  htDir := 1
  htOut := 1
  wakeArmed := false
  wakeFired := false
  htNew := false
  htFail := false
  thState := .awaitingWake
  restCnt := 0
  cadCnt := 0
  sampleNow := false
  pollPhase := .idle
  suspended := false
  txIdx := 0
  txBusy := false
  rxIdx := 0
  rxEof := false
  actClass := .none
  actLetter := 0
  actPct := 0
  actPctOk := false
  opResp := .accepted
  errSticky := 0
  rxBuf := []
  cmdHold := []
  txBuf := []
  cfg := c
  inbox := []
  held := []
  out := []
  fresh := 0

/-- SAF right after reset, with the default parameters of R7 (log 19). -/
def State.reset : State := State.resetWith Config.default

/-- The outcome of a step of SAF. -/
abbrev Result := Host.Outcome State Fault Refusal

end Sys2Proof.Machine
end

