-- ==== Sys2Proof/Machine/Flags.lean ====
section
/-! DEFINITION. The flag computations of SAF: the busy predicates (spec/10_state.md R51), the sticky error
bits (R38, R226), the sign and magnitude of a sample (R23, R106), the checksum of a humidity frame (R136),
and the codes of the enumerated registers (R26 to R38). -/

namespace Sys2Proof.Machine

/-- HTRX is in one of the six reading states of R51. -/
def HtState.reading : HtState → Bool
  | .w1 | .w2 | .w3 | .bwh | .bsmp | .bwl => true
  | .idle | .hold | .armed => false

/-- unit_busy: a blocking unit operation is in progress (R51). -/
def unitBusy (s : State) : Bool := s.lcState ≠ .idle || s.htState.reading

/-- main_busy: main level is occupied (R51). -/
def mainBusy (s : State) : Bool := unitBusy s || s.pollPhase ≠ .idle

/-- The bit of ERR_STICKY of an error: bit code − 1 (R38, R226, D33). -/
def errBit : ErrorCause → BitVec 6
  | .sensorTimeout => 0x01
  | .checksumMismatch => 0x02
  | .malformedCommand => 0x04
  | .sensorNotReady => 0x08
  | .illegalGain => 0x10
  | .opRefused => 0x20

/-- LC_NEG of a sample: bit 23 (R23). -/
def sampleNeg (raw : BitVec 24) : Bool := raw.getLsbD 23

/-- LC_MAG of a sample: invert, add one and keep 24 bits when the sign is set (R106). -/
def sampleMag (raw : BitVec 24) : BitVec 24 := if sampleNeg raw then ~~~raw + 1 else raw

/-- `lc_value`, the signed value of the sample registers (R23). -/
def lcValue (s : State) : Int := if s.lcNeg then -(s.lcMag.toNat : Int) else s.lcMag.toNat

/-- Byte `k` of a humidity frame, byte 0 in bits 39:32 (R27). -/
def htByte (f : BitVec 40) (k : Nat) : Byte := f.extractLsb' (32 - 8 * k) 8

/-- The checksum test: the fifth byte is the sum of the first four modulo 256 (R136). -/
def checksumOk (f : BitVec 40) : Bool :=
  htByte f 0 + htByte f 1 + htByte f 2 + htByte f 3 = htByte f 4

/-- The bits of a counter that runs up to `limit`: ⌈log2(limit+1)⌉ (R21). -/
def counterBits (limit : Nat) : Nat := if limit = 0 then 0 else limit.log2 + 1

/-- A counter that runs up to `limit`, incremented in the bits R21 gives it (log 12). -/
def bump (limit n : Nat) : Nat := (n + 1) % 2 ^ counterBits limit

/-! ## Codes -/

/-- A flag as a number. -/
def flagCode (b : Bool) : Nat := if b then 1 else 0

/-- The codes of lc_state (R26). -/
def LcState.code : LcState → Nat
  | .idle => 0 | .wait => 1 | .shift => 2 | .gain => 3

/-- The codes of LC_STATUS (R26). -/
def LcStatus.code : LcStatus → Nat
  | .none => 0 | .ok => 1 | .notReady => 2

/-- The codes of ht_state (R28). -/
def HtState.code : HtState → Nat
  | .idle => 0 | .hold => 1 | .armed => 2 | .w1 => 3 | .w2 => 4 | .w3 => 5 | .bwh => 6 | .bsmp => 7
  | .bwl => 8

/-- The codes of HT_STATUS (R28). -/
def HtStatus.code : HtStatus → Nat
  | .none => 0 | .ok => 1 | .timeout => 2 | .checksum => 3

/-- The codes of th_state (R32). -/
def ThState.code : ThState → Nat
  | .awaitingWake => 0 | .sampling => 1 | .waitingWake => 2 | .waitingRest => 3

/-- The codes of poll_phase (R32). -/
def PollPhase.code : PollPhase → Nat
  | .idle => 0 | .seq => 1 | .lc => 2 | .enc => 3 | .cmd => 4

/-- The codes of act_class (R35). -/
def ActClass.code : ActClass → Nat
  | .none => 0 | .halt => 1 | .stop => 2 | .setpoint => 3 | .sprayOn => 4 | .sprayOff => 5

/-- The codes of OP_RESP (R38). -/
def OpResp.code : OpResp → Nat
  | .accepted => 0 | .refusedReserved => 1 | .refusedGain => 2 | .refusedState => 3

end Sys2Proof.Machine
end

