-- ==== Sys2Proof/Machine/Memory.lean ====
section
/-! DEFINITION. The three byte memories (spec/10_state.md R40, spec/20_memory.md R60 to R64): one canonical
form, a read of one byte that answers nothing where no value is held (R52), and writes that keep the form. -/

namespace Sys2Proof.Machine

/-- The byte at an index, if it holds a value (R52). -/
def Memory.read (i : Nat) : Memory → Option Byte
  | [] => none
  | c :: m => if c.1 = i then some c.2 else Memory.read i m

/-- Write one byte, keeping the indices strictly rising. -/
def Memory.write (i : Nat) (b : Byte) : Memory → Memory
  | [] => [(i, b)]
  | c :: m =>
    if i < c.1 then (i, b) :: c :: m
    else if i = c.1 then (i, b) :: m
    else c :: Memory.write i b m

/-- MemWrite of consecutive bytes, lowest index first (R10). -/
def Memory.writeBlock (i : Nat) : List Byte → Memory → Memory
  | [], m => m
  | b :: bs, m => Memory.writeBlock (i + 1) bs (Memory.write i b m)

/-- The indices are strictly rising. -/
def Memory.rising : Memory → Bool
  | [] => true
  | [_] => true
  | c :: d :: m => decide (c.1 < d.1) && Memory.rising (d :: m)

/-- The canonical form of a memory of `size` bytes: strictly rising indices, all inside the buffer. -/
def Memory.wf (size : Nat) (m : Memory) : Bool := m.rising && m.all (fun c => decide (c.1 < size))

/-- Every byte of the buffer below `n` holds a value. -/
def Memory.writtenBelow (n : Nat) (m : Memory) : Bool :=
  (List.range n).all (fun i => (m.read i).isSome)

/-- The size of each memory in bytes (R40). -/
def spaceSize (c : Config) : Space → Nat
  | .rxBuf => cmdLen
  | .cmdHold => cmdLen
  | .txBuf => c.frameW

/-- The memory of a space. -/
def State.mem (s : State) : Space → Memory
  | .rxBuf => s.rxBuf
  | .cmdHold => s.cmdHold
  | .txBuf => s.txBuf

/-- MemRead of one byte: a fault outside the buffer (R63; log 10) and where no value is held (R52; log 9). -/
def memRead (sp : Space) (i : Nat) (s : State) : Except Fault Byte :=
  if i < spaceSize s.cfg sp then
    match (s.mem sp).read i with
    | some b => .ok b
    | none => .error (.noValue sp i)
  else .error (.outsideBuffer sp i)

end Sys2Proof.Machine
end

