-- ==== Sys2Proof/Machine/Ops.lean ====
section
/-! DEFINITION. The operations every meaning shares: emitting an event (spec/00_scope.md R10), raising an
error and refusing a request (60_exceptions.md R226, R230), taking a request at the control port (R9, R80,
R83), fetching the next stimulus (20_memory.md R69), and the observation port (10_state.md R20, R21).
SAF has no exception entry and no return: an error sets its bit and never transfers control (R226, R237). -/

namespace Sys2Proof.Machine

/-- `emit E`: the event is visible to the environment at the end of the step (R10; log 4). -/
def State.emit (e : OutEvent) (s : State) : State := { s with out := s.out ++ [e] }

/-- `raise E`: exactly one bit of ERR_STICKY is set; control is not transferred (R226). -/
def State.raise (e : ErrorCause) (s : State) : State :=
  { s with errSticky := s.errSticky ||| errBit e }

/-- A refusal: a step that changes exactly OP_RESP and one bit of ERR_STICKY (R9, R230). -/
def State.refuse (r : OpResp) (e : ErrorCause) (s : State) : State :=
  { s.raise e with opResp := r }

/-- A request that is held waits at the control port (R9, R80; log 3). -/
def State.hold (w : OpWord) (s : State) : State := { s with held := s.held ++ [w] }

/-- Use one free value: the step numbers them (log 7). -/
def State.useFresh (n : Nat) (s : State) : State := { s with fresh := s.fresh + n }

/-- What an operation does once it is taken: it is accepted with the state its rule gives (OP_RESP aside),
or declined with the response and the error of R230 and no other change, or it met a fault of the model. -/
inductive Taken where
  | accepted (s : State)
  | declined (r : OpResp) (e : ErrorCause)
  | stopped (f : Fault)
deriving DecidableEq, Repr

/-- The answer on the control port: every accepted request writes OP_RESP <- ACCEPTED (R83). -/
def respond (s : State) : Taken → Result
  | .accepted t => .next { t with opResp := .accepted }
  | .declined r e => .next (s.refuse r e)
  | .stopped f => .fault f

/-- A request on the control port: held while main level is busy, else taken in this step (R9, R80). -/
def atPort (w : OpWord) (take : State → Taken) (s : State) : Result :=
  if mainBusy s then .next (s.hold w) else respond s (take s)

/-- An operation performed inside a POLL phase, which then goes on with `k`: OP_RESP is not written, and
an operation that would be refused only raises its error (R161, R230). -/
def embed (s : State) (k : State → State) : Taken → Result
  | .accepted t => .next (k t)
  | .declined _ e => .next (k (s.raise e))
  | .stopped f => .fault f

/-- A reserved operation word: held like any request, refused when taken (R83, R230 (a)). -/
def reservedRequest (w : OpWord) (s : State) : Result :=
  atPort w (fun _ => .declined .refusedReserved .opRefused) s

/-- An event whose enabling condition is false does not occur: the state stays (R9, R85; log 5). -/
def notEnabled (s : State) : Result := .next s

/-- The next stimulus of the schedule and the state without it. -/
def nextScheduled (s : State) : Option (Stimulus × State) :=
  match s.inbox with
  | [] => none
  | x :: xs => some (x, { s with inbox := xs })

/-- What happens next: a held word is taken as soon as main level is free (R80), and otherwise the next
stimulus of the schedule comes (R69; log 2, log 3). -/
def fetch (s : State) : Option (Stimulus × State) :=
  match s.held with
  | [] => nextScheduled s
  | w :: ws => if mainBusy s then nextScheduled s else some (.request w, { s with held := ws })

/-- Place a word where the next step finds it (log 16). -/
def State.present (w : OpWord) (s : State) : State :=
  if mainBusy s then { s with inbox := .request w :: s.inbox } else { s with held := w :: s.held }

/-- Main level free: no unit operation and no POLL in progress (R51; used by `presentFrame` only). -/
def State.freeMain (s : State) : State :=
  { s with lcState := .idle, htState := if s.htState.reading then .idle else s.htState,
           pollPhase := .idle }

/-- Place a command frame where the next step dispatches it: in RX_BUF, with rx_eof set and CMD.TAKE on a
free control port (R205; log 16). -/
def State.presentFrame (w : Frame) (s : State) : State :=
  State.present (opWord 5 0)
    { s.freeMain with
      rxEof := true
      rxBuf := Memory.writeBlock 0
        [frameByte w 0, frameByte w 1, frameByte w 2, frameByte w 3] s.rxBuf }

/-- The observation port: the register of number `i` as a number (R20, R21, D3).
Register 10 is absent when LC_TIMEOUT is infinite; there is none above 39. -/
def observeReg (s : State) : Nat → Option Nat
  | 0 => some s.lcRaw.toNat
  | 1 => some (flagCode s.lcNeg)
  | 2 => some s.lcMag.toNat
  | 3 => some s.lcGainUsed.toNat
  | 4 => some (flagCode s.lcValid)
  | 5 => some s.lcStatus.code
  | 6 => some s.lcState.code
  | 7 => some s.lcShreg.toNat
  | 8 => some s.lcBitcnt.toNat
  | 9 => some s.lcGain.toNat
  | 10 => s.cfg.lcTimeout.map (fun _ => s.lcWait)
  | 11 => some s.lcSck.toNat
  | 12 => some s.htFrame.toNat
  | 13 => some s.htStatus.code
  | 14 => some s.htState.code
  | 15 => some s.htShreg.toNat
  | 16 => some s.htBitidx.toNat
  | 17 => some s.htTo
  | 18 => some s.htDir.toNat
  | 19 => some s.htOut.toNat
  | 20 => some (flagCode s.wakeArmed)
  | 21 => some (flagCode s.wakeFired)
  | 22 => some (flagCode s.htNew)
  | 23 => some (flagCode s.htFail)
  | 24 => some s.thState.code
  | 25 => some s.restCnt
  | 26 => some s.cadCnt
  | 27 => some (flagCode s.sampleNow)
  | 28 => some s.pollPhase.code
  | 29 => some (flagCode s.suspended)
  | 30 => some s.txIdx
  | 31 => some (flagCode s.txBusy)
  | 32 => some s.rxIdx.toNat
  | 33 => some (flagCode s.rxEof)
  | 34 => some s.actClass.code
  | 35 => some s.actLetter.toNat
  | 36 => some s.actPct.toNat
  | 37 => some (flagCode s.actPctOk)
  | 38 => some s.opResp.code
  | 39 => some s.errSticky.toNat
  | _ => none

end Sys2Proof.Machine
end

