-- ==== Sys2Proof/Machine/Platform.lean ====
section
/-! DEFINITION. RESET (spec/70_reset_and_hazards.md R250). -/

namespace Sys2Proof.Machine

/-- The state RESET leaves: every register as in R50, every byte of the three memories without a value.
A register R50 gives no value holds a free value (R52, U4; log 7).
The parameters are constants of the block, what the environment still has to give comes after, a held
request stays held, and what was emitted stays emitted (R250). -/
def resetEffect (s : State) : State :=
  { State.resetWith s.cfg with
    lcRaw := Config.freeValue 24 s.fresh
    lcNeg := Config.freeValue 1 (s.fresh + 1) = 1
    lcMag := Config.freeValue 24 (s.fresh + 2)
    lcGainUsed := Config.freeValue 5 (s.fresh + 3)
    lcShreg := Config.freeValue 24 (s.fresh + 4)
    htFrame := Config.freeValue 40 (s.fresh + 5)
    htShreg := Config.freeValue 40 (s.fresh + 6)
    actLetter := Config.freeValue 8 (s.fresh + 7)
    actPct := Config.freeValue 7 (s.fresh + 8)
    inbox := s.inbox
    held := s.held
    out := s.out
    fresh := s.fresh + 9 }

/-- RESET, always enabled (R250). -/
def execReset (s : State) : Result := .next (resetEffect s)

end Sys2Proof.Machine
end

