-- ==== Sys2Proof/Machine/Operands.lean ====
section
/-! DEFINITION. The operand forms of SAF: ASCII digits (spec/00_scope.md R12), the digit-pack
(43_fmt.md R188), the three-digit percentage (30_encoding.md R89, 44_crx.md R209), and the trace
notation's operand of LC.STEP (R94, R103). -/

namespace Sys2Proof.Machine

/-- `asc(d)`: the byte 0x30 + d (R12). -/
def asc (d : Nat) : Byte := BitVec.ofNat 8 (0x30 + d)

/-- The byte is an ASCII digit (R12). -/
def isDigit (b : Byte) : Bool := 0x30 ≤ b && b ≤ 0x39

/-- `dig(b)`: the value of an ASCII digit; used on digits only (R12). -/
def dig (b : Byte) : Nat := b.toNat - 0x30

/-- `digit(n, i)`: the decimal digit of weight 10^i (R188). -/
def digit (n i : Nat) : Nat := n / 10 ^ i % 10

/-- `dec_w(n)`: w digits, most significant first (R188). -/
def dec : Nat → Nat → List Byte
  | 0, _ => []
  | w + 1, n => asc (digit n w) :: dec w n

/-- The percentage of three bytes: a value when all are digits and it is at most 100 (R89, R209). -/
def parsePct (d2 d1 d0 : Byte) : Option (BitVec 7) :=
  if isDigit d2 && isDigit d1 && isDigit d0 then
    let p := 100 * dig d2 + 10 * dig d1 + dig d0
    if p ≤ pctMax then some (BitVec.ofNat 7 p) else none
  else none

/-- The draw that the trace notation writes as operand `x` of LC.STEP: in LC_WAIT the notation writes the
logical value `ready`, elsewhere the draw itself (R94, R103; log 11). -/
def drawOfTrace (s : State) (x : Level) : Level :=
  if s.lcState = .wait then (if x = 1 then s.cfg.drdyActive else ~~~s.cfg.drdyActive) else x

end Sys2Proof.Machine
end

