-- ==== Sys2Proof/Machine/Crx.lean ====
section
/-! DEFINITION. CRX, the command receive framer and dispatcher: RX.BYTE, CMD.TAKE and the seven command
frames (spec/44_crx.md R200 to R216). -/

namespace Sys2Proof.Machine

/-- Where RX.BYTE stores: a command character restarts the frame (R200). -/
def rxStoreIdx (b : Byte) (s : State) : BitVec 3 := if inCmdSet b then 0 else s.rxIdx

/-- RX.BYTE b, always enabled (R200).
An index outside the buffer cannot arise (R63) and faults (log 10). -/
def execRxByte (b : Byte) (s : State) : Result :=
  let i := rxStoreIdx b s
  if i.toNat < cmdLen then
    .next { s with
      rxBuf := Memory.write i.toNat b s.rxBuf
      rxIdx := if i + 1 = 4 then 0 else i + 1
      rxEof := if i + 1 = 4 then true else s.rxEof }
  else .fault (.outsideBuffer .rxBuf i.toNat)

/-- Write the four act registers of a dispatched command and emit ACT.CMD with their new values (R206,
R210).
With no percentage act_pct is a free value (R35, U6; log 8). -/
def dispatchAct (cls : ActClass) (letter : Byte) (pct : Option (BitVec 7)) (s : State) : State :=
  match pct with
  | some p =>
    ({ s with actClass := cls, actLetter := letter, actPct := p, actPctOk := true }).emit
      (.actCmd cls letter p true)
  | none =>
    let p := Config.freeValue 7 s.fresh
    ({ s with actClass := cls, actLetter := letter, actPct := p, actPctOk := false }.useFresh 1).emit
      (.actCmd cls letter p false)

/-- Command Q: halt, and main processing is suspended until RESET (R211, D32). -/
def cmdQEffect (_d2 _d1 _d0 : Byte) (s : State) : State :=
  { dispatchAct .halt 0x51 none s with suspended := true }

/-- Command S: stop (R207). -/
def cmdSEffect (_d2 _d1 _d0 : Byte) (s : State) : State := dispatchAct .stop 0x53 none s

/-- Command F: forward (R208). -/
def cmdFEffect (d2 d1 d0 : Byte) (s : State) : State :=
  dispatchAct .setpoint 0x46 (parsePct d2 d1 d0) s

/-- Command R: reverse (R212). -/
def cmdREffect (d2 d1 d0 : Byte) (s : State) : State :=
  dispatchAct .setpoint 0x52 (parsePct d2 d1 d0) s

/-- Command G: go, a setpoint (R213, 90_conflicts.md C1). -/
def cmdGEffect (d2 d1 d0 : Byte) (s : State) : State :=
  dispatchAct .setpoint 0x47 (parsePct d2 d1 d0) s

/-- Command M: spray on (R214). -/
def cmdMEffect (_d2 _d1 _d0 : Byte) (s : State) : State := dispatchAct .sprayOn 0x4D none s

/-- Command N: spray off (R215). -/
def cmdNEffect (_d2 _d1 _d0 : Byte) (s : State) : State := dispatchAct .sprayOff 0x4E none s

/-- The dispatch of command Q (R211; log 17). -/
def execCmdQ (d2 d1 d0 : Byte) (s : State) : Result := .next (cmdQEffect d2 d1 d0 s)

/-- The dispatch of command S (R207; log 17). -/
def execCmdS (d2 d1 d0 : Byte) (s : State) : Result := .next (cmdSEffect d2 d1 d0 s)

/-- The dispatch of command F (R208; log 17). -/
def execCmdF (d2 d1 d0 : Byte) (s : State) : Result := .next (cmdFEffect d2 d1 d0 s)

/-- The dispatch of command R (R212; log 17). -/
def execCmdR (d2 d1 d0 : Byte) (s : State) : Result := .next (cmdREffect d2 d1 d0 s)

/-- The dispatch of command G (R213; log 17). -/
def execCmdG (d2 d1 d0 : Byte) (s : State) : Result := .next (cmdGEffect d2 d1 d0 s)

/-- The dispatch of command M (R214; log 17). -/
def execCmdM (d2 d1 d0 : Byte) (s : State) : Result := .next (cmdMEffect d2 d1 d0 s)

/-- The dispatch of command N (R215; log 17). -/
def execCmdN (d2 d1 d0 : Byte) (s : State) : Result := .next (cmdNEffect d2 d1 d0 s)

/-- Dispatch by leading character: one of the seven commands, or MalformedCommand (R206, R216). -/
def dispatch (c d2 d1 d0 : Byte) (s : State) : State :=
  if c = 0x51 then cmdQEffect d2 d1 d0 s
  else if c = 0x53 then cmdSEffect d2 d1 d0 s
  else if c = 0x46 then cmdFEffect d2 d1 d0 s
  else if c = 0x52 then cmdREffect d2 d1 d0 s
  else if c = 0x47 then cmdGEffect d2 d1 d0 s
  else if c = 0x4D then cmdMEffect d2 d1 d0 s
  else if c = 0x4E then cmdNEffect d2 d1 d0 s
  else s.raise .malformedCommand

/-- MemRead of the whole frame in RX_BUF (R60). -/
def readFrame (s : State) : Except Fault (Byte × Byte × Byte × Byte) := do
  let c ← memRead .rxBuf 0 s
  let d2 ← memRead .rxBuf 1 s
  let d1 ← memRead .rxBuf 2 s
  let d0 ← memRead .rxBuf 3 s
  return (c, d2, d1, d0)

/-- The frame copied to CMD_HOLD and the end-of-frame signal cleared, before the dispatch (R205). -/
def cmdCopy (c d2 d1 d0 : Byte) (s : State) : State :=
  { s with cmdHold := Memory.writeBlock 0 [c, d2, d1, d0] s.cmdHold, rxEof := false }

/-- CMD.TAKE once taken: nothing without a frame, else copy and dispatch in one step (R205, D29). -/
def cmdTakeTake (s : State) : Taken :=
  if s.rxEof then
    match readFrame s with
    | .error f => .stopped f
    | .ok (c, d2, d1, d0) => .accepted (dispatch c d2 d1 d0 (cmdCopy c d2 d1 d0 s))
  else .accepted s

/-- CMD.TAKE (R205). -/
def execCmdTake (s : State) : Result := atPort (opWord 5 0) cmdTakeTake s

end Sys2Proof.Machine
end

