-- ==== Sys2Proof/Machine/Fmt.lean ====
section
/-! DEFINITION. FMT and TX, the telemetry frame formatter and its byte streamer: FMT.ENC and TX.POP
(spec/43_fmt.md R176 to R190). -/

namespace Sys2Proof.Machine

/-- The sign takes the place of the padding zero next to the first significant digit (R181).
With no digit but zeros, or no zero before the first, the string stays: neither arises (log 13). -/
def signAdjacent (s : List Byte) : List Byte :=
  let k := s.findIdx (fun b => b ≠ 0x30)
  if 0 < k ∧ k < s.length then s.set (k - 1) 0x2D else s

/-- The LOAD field (R181). -/
def loadField (s : State) : List Byte :=
  if s.lcNeg then signAdjacent (dec loadW s.lcMag.toNat) else dec loadW s.lcMag.toNat

/-- The HUM field of a valid reading: tens and ones of H_INT (R183, D24). -/
def humField (s : State) : List Byte := dec humW (htByte s.htFrame 0).toNat

/-- The characters of a frame: every byte of one is among them (R187). -/
def frameChars (c : Config) : List Byte :=
  [0x30, 0x31, 0x32, 0x33, 0x34, 0x35, 0x36, 0x37, 0x38, 0x39, 0x2D, c.tsignPos, placeholder, errMark,
    c.sep, c.term0, c.term1]

/-- The character of a frame that a number chooses. -/
def frameChar (c : Config) (n : Nat) : Byte :=
  (frameChars c).getD (n % (frameChars c).length) placeholder

/-- The TEMP field of a valid reading: the sign position, then tens and ones of the magnitude (R184).
Where TEMP_W is not 3 each byte is a free one of the characters of a frame (R187; log 14). -/
def tempField (s : State) : List Byte :=
  let t := htByte s.htFrame 2
  if s.cfg.tempW = 3 then
    (if t.getLsbD 7 then 0x2D else s.cfg.tsignPos) :: dec 2 (t.extractLsb' 0 7).toNat
  else (List.range s.cfg.tempW).map (fun i => frameChar s.cfg (Config.freeTempChar s.cfg.tempW t i))

/-- Placeholders of a width; in the error case the first of them is the error marker (R185). -/
def placeholders (err : Bool) (w : Nat) : List Byte :=
  if err then (List.replicate w placeholder).set 0 errMark else List.replicate w placeholder

/-- The bytes of one field (R177); `err` says that this field holds the error marker. -/
def fieldBytes (s : State) (err : Bool) : Field → List Byte
  | .load => loadField s
  | .hum => if s.htNew then humField s else placeholders err humW
  | .temp => if s.htNew then tempField s else placeholders err s.cfg.tempW
  | .sep => [s.cfg.sep]
  | .term => [s.cfg.term0, s.cfg.term1]

/-- The field is HUM or TEMP, whose placeholders can hold the marker (R177). -/
def fieldIsReading : Field → Bool
  | .hum | .temp => true
  | .load | .sep | .term => false

/-- The fields of a layout in order; the marker stands in the first HUM or TEMP only (R177, R185, D40).
DEDUCED: a TEMP of width 0 before HUM shows no marker (log 14). -/
def renderFields (s : State) (err : Bool) : List Field → List Byte
  | [] => []
  | f :: fs => fieldBytes s err f ++ renderFields s (err && !fieldIsReading f) fs

/-- The telemetry frame of a state (R180, R182): valid, stale, or in error. -/
def telemetryFrame (s : State) : List Byte :=
  renderFields s (!s.htNew && s.htFail) s.cfg.layout

/-- The effect of an accepted FMT.ENC, OP_RESP aside (R180). -/
def fmtEncEffect (s : State) : State :=
  { s with
    txBuf := Memory.writeBlock 0 (telemetryFrame s) s.txBuf
    txIdx := 0
    txBusy := true
    htNew := false }

/-- FMT.ENC once taken: refused without a valid sample, or while a frame is streamed (R179, D26). -/
def fmtEncTake (s : State) : Taken :=
  if s.lcValid && !s.txBusy then .accepted (fmtEncEffect s) else .declined .refusedState .opRefused

/-- FMT.ENC (R178). -/
def execFmtEnc (s : State) : Result := atPort (opWord 4 0) fmtEncTake s

/-- TX.POP: the next byte goes to the transport; enabled exactly while a frame is streamed (R190). -/
def execTxPop (s : State) : Result :=
  if s.txBusy then
    match memRead .txBuf s.txIdx s with
    | .error f => .fault f
    | .ok b =>
      .next { s.emit (.txByte b) with
        txIdx := bump s.cfg.frameW s.txIdx
        txBusy := decide (s.txIdx + 1 ≠ s.cfg.frameW) }
  else notEnabled s

end Sys2Proof.Machine
end

