-- ==== Sys2Proof/Machine/Htrx.lean ====
section
/-! DEFINITION. HTRX, the single-wire humidity/temperature receiver: HT.START, HT.RELEASE, WAKE.FIRE,
HT.READ and HT.STEP (spec/41_htrx.md R120 to R139). -/

namespace Sys2Proof.Machine

/-- The effect of an accepted HT.START, OP_RESP aside (R121). -/
def htStartEffect (s : State) : State :=
  { s.emit .htArm with
    htDir := 1
    htOut := 0
    htState := .hold
    wakeArmed := true
    wakeFired := false }

/-- HT.START once taken: refused unless HTRX is idle (R120, D15). -/
def htStartTake (s : State) : Taken :=
  if s.htState = .idle then .accepted (htStartEffect s) else .declined .refusedState .opRefused

/-- HT.START (R120). -/
def execHtStart (s : State) : Result := atPort (opWord 2 0) htStartTake s

/-- HT.RELEASE: the hold time has elapsed; enabled exactly in HT_HOLD (R124). -/
def execHtRelease (s : State) : Result :=
  if s.htState = .hold then .next { s with htDir := 0, htState := .armed } else notEnabled s

/-- WAKE.FIRE: the wake latency has elapsed; enabled exactly when the timer is armed (R125). -/
def execWakeFire (s : State) : Result :=
  if s.wakeArmed then .next { s with wakeArmed := false, wakeFired := true } else notEnabled s

/-- HT.READ may start: the wake latency has elapsed and a wake sequence is pending (R127). -/
def htReadReady (s : State) : Bool := s.wakeFired && (s.htState = .hold || s.htState = .armed)

/-- The effect of an accepted HT.READ, OP_RESP aside; the line is released here if it is still held (R128). -/
def htReadEffect (s : State) : State :=
  { s with
    wakeFired := false
    htDir := 0
    htShreg := 0
    htBitidx := 0
    htTo := 0
    htStatus := .none
    htState := .w1 }

/-- HT.READ once taken (R127, D15). -/
def htReadTake (s : State) : Taken :=
  if htReadReady s then .accepted (htReadEffect s) else .declined .refusedState .opRefused

/-- HT.READ (R126). -/
def execHtRead (s : State) : Result := atPort (opWord 3 0) htReadTake s

/-- The completion hook: Sampling goes to WaitingRest whatever the outcome (R139). -/
def htHook (s : State) : State :=
  if s.thState = .sampling then { s with thState := .waitingRest, restCnt := 0 } else s

/-- The line idle and the receiver idle (R122). -/
def htIdleLine (s : State) : State := { s with htDir := 1, htOut := 1, htState := .idle }

/-- A read that failed: the line idle, no reading available, the failure recorded (R131, R138). -/
def htFailed (st : HtStatus) (e : ErrorCause) (s : State) : State :=
  htHook ({ htIdleLine s with htStatus := st, htNew := false, htFail := true }.raise e)

/-- Abort with Timeout (R131). -/
def htTimeout (s : State) : State := htFailed .timeout .sensorTimeout s

/-- A frame whose checksum is wrong is discarded: HT_FRAME is not written (R138). -/
def htChecksumMismatch (s : State) : State := htFailed .checksum .checksumMismatch s

/-- A valid frame: surfaced in HT_FRAME, and the rest signal emitted (R137). -/
def htSuccess (s : State) : State :=
  htHook { (htIdleLine s).emit .htRest with
    htFrame := s.htShreg, htStatus := .ok, htNew := true, htFail := false }

/-- End of frame: the checksum decides (R135, R136). -/
def htEndOfFrame (s : State) : State :=
  if checksumOk s.htShreg then htSuccess s else htChecksumMismatch s

/-- The level each wait state waits for (R129); the other states wait for none. -/
def htTarget : HtState → Option Level
  | .w1 => some 0
  | .w2 => some 1
  | .w3 => some 0
  | .bwh => some 1
  | .bwl => some 0
  | .idle | .hold | .armed | .bsmp => none

/-- The state after a wait whose target is seen, end of frame aside (R129). -/
def htNext : HtState → HtState
  | .w1 => .w2
  | .w2 => .w3
  | .w3 => .bwh
  | .bwh => .bsmp
  | .bwl => .bwh
  | .idle => .idle
  | .hold => .hold
  | .armed => .armed
  | .bsmp => .bsmp

/-- A wait that sees its target: the count restarts, and the last bit's fall ends the frame (R130, R135). -/
def htWaitHit (s : State) : State :=
  if s.htState = .bwl ∧ s.htBitidx = 40 then htEndOfFrame { s with htTo := 0 }
  else { s with htTo := 0, htState := htNext s.htState }

/-- A wait that misses its target: the HT_TO-th miss aborts the read (R130). -/
def htWaitMiss (s : State) : State :=
  let t := { s with htTo := bump s.cfg.htTo s.htTo }
  if s.htTo + 1 = s.cfg.htTo then htTimeout t else t

/-- HT.STEP in HT_BSMP: the level at the threshold is the bit (R134). -/
def htSample (l : Level) (s : State) : State :=
  { s with
    htShreg := s.htShreg <<< 1 ||| l.setWidth 40
    htBitidx := s.htBitidx + 1
    htTo := 0
    htState := .bwl }

/-- HT.STEP (R130, R134); enabled in the six reading states only. -/
def execHtStep (l : Level) (s : State) : Result :=
  match htTarget s.htState with
  | some target => .next (if l = target then htWaitHit s else htWaitMiss s)
  | none => if s.htState = .bsmp then .next (htSample l s) else notEnabled s

end Sys2Proof.Machine
end

