-- ==== Sys2Proof/Machine/Lcser.lean ====
section
/-! DEFINITION. LCSER, the load-cell serializer: LC.READ and LC.STEP (spec/40_lcser.md R100 to R106). -/

namespace Sys2Proof.Machine

/-- The effect of an accepted LC.READ g, OP_RESP aside (R101).
lc_wait is cleared only where LC_TIMEOUT is finite: otherwise it is absent (R21). -/
def lcReadEffect (g : BitVec 5) (s : State) : State :=
  { s with
    lcGain := g
    lcShreg := 0
    lcBitcnt := 0
    lcWait := if s.cfg.lcTimeout = none then s.lcWait else 0
    lcValid := false
    lcStatus := .none
    lcState := .wait }

/-- LC.READ g once taken: a gain outside GAIN_SET is refused before any pulse (R100, D7). -/
def lcReadTake (g : BitVec 5) (s : State) : Taken :=
  if gainLegal g then .accepted (lcReadEffect g s) else .declined .refusedGain .illegalGain

/-- LC.READ g (R100). -/
def execLcRead (g : BitVec 5) (s : State) : Result := atPort (opWord 1 g) (lcReadTake g) s

/-- One whole clock pulse: emitted with its number, counted, and the clock wire low again (R102). -/
def lcPulse (s : State) : State :=
  { s.emit (.lcPulse (s.lcBitcnt.toNat + 1)) with lcBitcnt := s.lcBitcnt + 1, lcSck := 0 }

/-- LC.STEP in LC_WAIT: one sample of the data wire, no pulse (R103). -/
def lcStepWait (d : Level) (s : State) : State :=
  if d = s.cfg.drdyActive then { s with lcState := .shift }
  else
    match s.cfg.lcTimeout with
    | none => s
    | some limit =>
      let n := bump limit s.lcWait
      if n = limit then
        ({ s with lcWait := n, lcStatus := .notReady, lcState := .idle }).raise .sensorNotReady
      else { s with lcWait := n }

/-- LC.STEP in LC_SHIFT: one pulse and one data bit, most significant first (R104). -/
def lcStepShift (d : Level) (s : State) : State :=
  { lcPulse s with
    lcShreg := s.lcShreg <<< 1 ||| d.setWidth 24
    lcState := if s.lcBitcnt + 1 = 24 then .gain else .shift }

/-- Completion of a read: the shifted-in word, its sign and magnitude, the gain argument (R106). -/
def lcComplete (s : State) : State :=
  { s with
    lcRaw := s.lcShreg
    lcNeg := sampleNeg s.lcShreg
    lcMag := sampleMag s.lcShreg
    lcGainUsed := s.lcGain
    lcValid := true
    lcStatus := .ok
    lcState := .idle }

/-- LC.STEP in LC_GAIN: one pulse without capture; the pulse numbered lc_gain completes the read (R105). -/
def lcStepGain (s : State) : State :=
  if s.lcBitcnt + 1 = s.lcGain then lcComplete (lcPulse s) else lcPulse s

/-- LC.STEP (R103 to R105); not enabled in LC_IDLE. -/
def execLcStep (d : Level) (s : State) : Result :=
  match s.lcState with
  | .idle => notEnabled s
  | .wait => .next (lcStepWait d s)
  | .shift => .next (lcStepShift d s)
  | .gain => .next (lcStepGain s)

end Sys2Proof.Machine
end

