-- ==== Sys2Proof/Machine/Seq.lean ====
section
/-! DEFINITION. SEQ, the sampling sequencer: TICK, SEQ.STEP, POLL and POLL.STEP
(spec/42_seq.md R150 to R165). -/

namespace Sys2Proof.Machine

/-- TICK: the cadence counter advances, and raises sample_now on reaching CAD_THRESH (R150). -/
def execTick (s : State) : Result :=
  if s.cadCnt + 1 = s.cfg.cadThresh then .next { s with cadCnt := 0, sampleNow := true }
  else .next { s with cadCnt := bump s.cfg.cadThresh s.cadCnt }

/-- The state after the effect of an operation performed inside another, if it was accepted. -/
def Taken.map (k : State → State) : Taken → Taken
  | .accepted t => .accepted (k t)
  | .declined r e => .declined r e
  | .stopped f => .stopped f

/-- SEQ.STEP once taken, by th_state (R151 to R155).
In Sampling, which no run reaches with main level free, it changes nothing (R154; log 13). -/
def seqStepTake (s : State) : Taken :=
  match s.thState with
  | .awaitingWake => (htStartTake s).map (fun t => { t with thState := .waitingWake })
  | .waitingWake =>
    if htReadReady s then .accepted { htReadEffect s with thState := .sampling } else .accepted s
  | .sampling => .accepted s
  | .waitingRest =>
    .accepted
      { s with
        restCnt := bump s.cfg.nRest s.restCnt
        thState := if s.restCnt + 1 = s.cfg.nRest then .awaitingWake else .waitingRest }

/-- SEQ.STEP (R151). -/
def execSeqStep (s : State) : Result := atPort (opWord 6 0) seqStepTake s

/-- POLL once taken: the micro-sequence starts unless main processing is suspended (R160). -/
def pollTake (s : State) : Taken :=
  .accepted (if s.suspended then s else { s with pollPhase := .seq })

/-- POLL (R160). -/
def execPoll (s : State) : Result := atPort (opWord 7 0) pollTake s

/-- The micro-sequence goes on to a phase. -/
def toPhase (p : PollPhase) (s : State) : State := { s with pollPhase := p }

/-- Phase PP_LC: a load-cell read on the cadence, else on to the commands (R163). -/
def pollLc (s : State) : State :=
  if s.sampleNow then toPhase .enc (lcReadEffect s.cfg.pollGain { s with sampleNow := false })
  else toPhase .cmd s

/-- POLL.STEP: one phase of the micro-sequence; enabled when a phase is due and no unit is busy
(R161 to R165). -/
def execPollStep (s : State) : Result :=
  if unitBusy s then notEnabled s
  else
    match s.pollPhase with
    | .idle => notEnabled s
    | .seq => embed s (toPhase .lc) (seqStepTake s)
    | .lc => .next (pollLc s)
    | .enc =>
      if s.lcValid then embed s (toPhase .cmd) (fmtEncTake s) else .next (toPhase .cmd s)
    | .cmd =>
      if s.rxEof then embed s (toPhase .idle) (cmdTakeTake s) else .next (toPhase .idle s)

end Sys2Proof.Machine
end

