-- ==== Sys2Proof/Machine/Dispatch.lean ====
section
/-! DEFINITION. The dispatch of every instruction to its meaning (spec/opcode_table.json). -/

namespace Sys2Proof.Machine

def exec (i : Instr) (s : State) : Host.Outcome State Fault Refusal :=
  match i with
  -- operation requests (R82)
  | .lcRead g => Sys2Proof.Machine.execLcRead g s
  | .htStart => Sys2Proof.Machine.execHtStart s
  | .htRead => Sys2Proof.Machine.execHtRead s
  | .fmtEnc => Sys2Proof.Machine.execFmtEnc s
  | .cmdTake => Sys2Proof.Machine.execCmdTake s
  | .seqStep => Sys2Proof.Machine.execSeqStep s
  | .poll => Sys2Proof.Machine.execPoll s
  -- events (R85)
  | .tick => Sys2Proof.Machine.execTick s
  | .rxByte b => Sys2Proof.Machine.execRxByte b s
  | .txPop => Sys2Proof.Machine.execTxPop s
  | .wakeFire => Sys2Proof.Machine.execWakeFire s
  | .htRelease => Sys2Proof.Machine.execHtRelease s
  | .reset => Sys2Proof.Machine.execReset s
  | .lcStep d => Sys2Proof.Machine.execLcStep d s
  | .htStep l => Sys2Proof.Machine.execHtStep l s
  | .pollStep => Sys2Proof.Machine.execPollStep s
  -- command frames (R90)
  | .cmdQ d2 d1 d0 => Sys2Proof.Machine.execCmdQ d2 d1 d0 s
  | .cmdS d2 d1 d0 => Sys2Proof.Machine.execCmdS d2 d1 d0 s
  | .cmdF d2 d1 d0 => Sys2Proof.Machine.execCmdF d2 d1 d0 s
  | .cmdR d2 d1 d0 => Sys2Proof.Machine.execCmdR d2 d1 d0 s
  | .cmdG d2 d1 d0 => Sys2Proof.Machine.execCmdG d2 d1 d0 s
  | .cmdM d2 d1 d0 => Sys2Proof.Machine.execCmdM d2 d1 d0 s
  | .cmdN d2 d1 d0 => Sys2Proof.Machine.execCmdN d2 d1 d0 s

end Sys2Proof.Machine
end

