-- ==== Sys2Proof/Machine/Step.lean ====
section
/-! DEFINITION. One step of SAF: the next stimulus is decoded and its instruction runs
(spec/00_scope.md R8, spec/20_memory.md R69; log 2). -/

namespace Sys2Proof.Machine

/-- One step.
With nothing to come SAF is idle and stays as it is (R168, D37); a reserved word is a request that is
refused when taken (R83). -/
def step (s : State) : Host.Outcome State Fault Refusal :=
  match fetch s with
  | none => .next s
  | some (x, t) =>
    match decode (.stimulus x), x with
    | .ok i, _ => exec i t
    | .error _, .request w => reservedRequest w t
    | .error _, _ => notEnabled t

/-- The instruction whose bits are `w` is what the next step runs (log 16): 32 bits are a command frame,
anything else an operation word. -/
def State.withFetchWord (s : State) (nbits w : Nat) : State :=
  if nbits = 32 then s.presentFrame (BitVec.ofNat 32 w) else s.present (BitVec.ofNat 8 w)

end Sys2Proof.Machine
end

