-- ==== Sys2Proof/WellFormed.lean ====
section
/-! DEFINITION. Which instructions can arise. Every operation word and every event is well formed; a
command frame is well formed when none of its last three bytes is a command character, because such a
byte restarts the frame on reception (44_crx.md R200, R201 (c)). -/

namespace Sys2Proof

/-- The bytes at positions 1 to 3 of a completed frame are never in CMDSET (R201 (c)). -/
def digitsReceivable (d2 d1 d0 : Byte) : Bool := !inCmdSet d2 && !inCmdSet d1 && !inCmdSet d0

/-- An instruction SAF can meet. An LC.READ with an illegal gain is one: it is taken and refused (R100). -/
def WellFormed : Instr → Bool
  | .lcRead _ | .htStart | .htRead | .fmtEnc | .cmdTake | .seqStep | .poll => true
  | .tick | .rxByte _ | .txPop | .wakeFire | .htRelease | .reset => true
  | .lcStep _ | .htStep _ | .pollStep => true
  | .cmdQ d2 d1 d0 => digitsReceivable d2 d1 d0
  | .cmdS d2 d1 d0 => digitsReceivable d2 d1 d0
  | .cmdF d2 d1 d0 => digitsReceivable d2 d1 d0
  | .cmdR d2 d1 d0 => digitsReceivable d2 d1 d0
  | .cmdG d2 d1 d0 => digitsReceivable d2 d1 d0
  | .cmdM d2 d1 d0 => digitsReceivable d2 d1 d0
  | .cmdN d2 d1 d0 => digitsReceivable d2 d1 d0

end Sys2Proof
end

