-- ==== Sys2Proof/Safety.lean ====
section
/-! DEFINITION. What counts as a safe run of SAF: the invariant the rules keep (spec/10_state.md R23 to R52,
spec/20_memory.md R63, spec/40_lcser.md R108, spec/41_htrx.md R128 to R139, spec/42_seq.md R158), and the
sequences of steps claims speak of (spec/30_encoding.md R95). -/

namespace Sys2Proof.Machine

/-! ## The invariant, unit by unit -/

/-- The block is an instance of SAF, and its memories are in canonical form inside their buffers. -/
abbrev ShapeInv (s : State) : Prop :=
  s.cfg.legal = true ∧ Memory.wf cmdLen s.rxBuf = true ∧ Memory.wf cmdLen s.cmdHold = true ∧
    Memory.wf s.cfg.frameW s.txBuf = true

/-- LCSER: the clock wire is low, the pulse count is in the range of its state, and a valid sample has the
sign and magnitude of its word (R23, R26, R102, R108). -/
abbrev LcInv (s : State) : Prop :=
  s.lcSck = 0 ∧
  (s.lcState ≠ .idle → gainLegal s.lcGain = true ∧ s.lcValid = false) ∧
  (s.lcState = .idle → s.lcBitcnt = 0 ∨ gainLegal s.lcBitcnt = true) ∧
  (s.lcState = .wait → s.lcBitcnt = 0 ∧ s.cfg.lcTimeout.all (fun n => s.lcWait < n) = true) ∧
  (s.lcState = .shift → s.lcBitcnt < 24) ∧
  (s.lcState = .gain → 24 ≤ s.lcBitcnt ∧ s.lcBitcnt < s.lcGain) ∧
  (s.lcValid = true → s.lcNeg = sampleNeg s.lcRaw ∧ s.lcMag = sampleMag s.lcRaw ∧
    gainLegal s.lcGainUsed = true ∧ s.lcStatus = .ok ∧ s.lcBitcnt = s.lcGain)

/-- HTRX: the line, the bit count and the miss count fit the state, the wake flags belong to a pending
wake sequence, and an available reading is a valid frame (R27, R122, R130, R182, R261 (c)). -/
abbrev HtInv (s : State) : Prop :=
  s.htBitidx ≤ 40 ∧ s.htTo ≤ s.cfg.htTo ∧
  (s.htState.reading = true → s.htTo < s.cfg.htTo ∧ s.htDir = 0) ∧
  (s.htState = .idle → s.htDir = 1 ∧ s.htOut = 1) ∧
  (s.htState = .hold → s.htDir = 1 ∧ s.htOut = 0) ∧
  (s.htState = .armed → s.htDir = 0) ∧
  (s.htState = .w1 ∨ s.htState = .w2 ∨ s.htState = .w3 → s.htBitidx = 0) ∧
  (s.htState = .bwh ∨ s.htState = .bsmp → s.htBitidx < 40) ∧
  (s.htState = .bwl → 0 < s.htBitidx) ∧
  (s.wakeArmed = true → s.wakeFired = false) ∧
  (s.wakeArmed = true ∨ s.wakeFired = true → s.htState = .hold ∨ s.htState = .armed) ∧
  (s.htNew = true → checksumOk s.htFrame = true ∧ s.htFail = false)

/-- SEQ and main level: one blocking read at a time, Sampling only while the humidity read runs, and the
counters in their ranges (R32, R51, R154). -/
abbrev SeqInv (s : State) : Prop :=
  (s.htState.reading = true → s.lcState = .idle) ∧
  (s.thState = .sampling → s.htState.reading = true) ∧
  s.cadCnt < s.cfg.cadThresh ∧ s.restCnt ≤ s.cfg.nRest ∧
  (s.thState = .waitingRest → s.restCnt < s.cfg.nRest)

/-- TX: a frame being streamed is written whole and its index is inside it (R52, R63). -/
abbrev TxInv (s : State) : Prop :=
  s.txIdx ≤ s.cfg.frameW ∧
  (s.txBusy = true → s.txIdx < s.cfg.frameW ∧ s.txBuf.writtenBelow s.cfg.frameW = true)

/-- CRX: the index is inside RX_BUF, the bytes below it are written, all of them once a frame has ended,
and no command character stands after index 0 (R35, R52, R201 (c)); a valid percentage is at most 100 and
belongs to a setpoint (R35, R209). -/
abbrev RxInv (s : State) : Prop :=
  s.rxIdx < 4 ∧ s.rxBuf.writtenBelow s.rxIdx.toNat = true ∧
  (s.rxEof = true → s.rxBuf.writtenBelow cmdLen = true) ∧
  (∀ c ∈ s.rxBuf, c.1 ≠ 0 → inCmdSet c.2 = false) ∧
  (s.actPctOk = true → s.actPct ≤ 100 ∧ s.actClass = .setpoint)

/-- The invariant of SAF. -/
abbrev SafInv (s : State) : Prop := ShapeInv s ∧ LcInv s ∧ HtInv s ∧ SeqInv s ∧ TxInv s ∧ RxInv s

/-! ## Sequences of steps -/

/-- The instructions of a list one after another, up to the first stop. -/
def runAll : List Instr → State → Result
  | [], s => .next s
  | i :: is, s =>
    match exec i s with
    | .next t => runAll is t
    | .fault f => .fault f
    | .refused r => .refused r

/-- The 24 data draws of a word, most significant bit first (R61, R86). -/
def lcDraws (w : BitVec 24) : List Instr :=
  (List.range 24).map (fun k => .lcStep (BitVec.ofBool (w.getMsbD k)))

/-- LC.FEED: the ready sample, the data bits of `w`, and the extra pulses of gain `g` (R95). -/
def lcFeed (c : Config) (g : BitVec 5) (w : BitVec 24) : List Instr :=
  .lcStep c.drdyActive :: (lcDraws w ++ List.replicate (g.toNat - 24) (.lcStep 0))

/-- The three HT.STEPs of one bit: rise, sample, fall (R95). -/
def htBit (v : Bool) : List Instr := [.htStep 1, .htStep (BitVec.ofBool v), .htStep 0]

/-- HT.FEED: the three acknowledgement levels, then the 40 bits of `f`, most significant first (R95). -/
def htFeed (f : BitVec 40) : List Instr :=
  [.htStep 0, .htStep 1, .htStep 0] ++ (List.range 40).flatMap (fun k => htBit (f.getMsbD k))

/-! ## What a receiver reads in the load field -/

/-- The value of a string of decimal digits. -/
def digitsValue (bs : List Byte) : Nat := bs.foldl (fun n b => 10 * n + dig b) 0

/-- What a strict receiver reads in a load field (R181): digits alone, or zeros, the minus sign, and digits
of which the first is significant.
Anything else is no load field. -/
def loadFieldValue (bs : List Byte) : Option Int :=
  let digits := (bs.dropWhile (fun b => b ≠ 0x2D)).drop 1
  if (0x2D : Byte) ∈ bs then
    if (bs.takeWhile (fun b => b ≠ 0x2D)).all (fun b => b = 0x30) && digits.all isDigit &&
        digits.head?.any (fun b => b ≠ 0x30)
    then some (-(digitsValue digits : Int)) else none
  else if bs.all isDigit then some (digitsValue bs : Int) else none

end Sys2Proof.Machine
end

