-- ==== Sys2Proof/Certificates/Slice0/Obligations.lean ====
section
/-! DEFINITION. The statements for the provers, from the numbered rules of spec/.
An equation `exec i s = .next { s with … }` is also the frame of its instruction: every register, flag,
memory byte and event it does not name is unchanged. -/

open Sys2Proof Sys2Proof.Machine

/-! ## Encoding -/

/-- R82, R85, R90: decoding the words of any instruction gives it back, every operand at every value. -/
def Obligations.DecodeEncodeRoundTrip : Prop := ∀ i : Instr, decode (encode i) = .ok i

/-- R82, R85, R90: each word has one meaning, and the encoder writes exactly the word that was decoded. -/
def Obligations.DecodedWordsReencode : Prop :=
  ∀ (c : Code) (i : Instr), decode c = .ok i → encode i = c

/-- R83, first sentence on reserved words: op = 0, or op from 2 to 7 with arg not 0; and no other word. -/
def Obligations.ReservedWordsAreRejected : Prop :=
  ∀ w : OpWord,
    decode (.stimulus (.request w)) = .error (.reservedWord w) ↔
      w.toNat < 0x20 ∨ (0x40 ≤ w.toNat ∧ w.toNat % 32 ≠ 0)

/-- R82, R90: words written out from the tables. -/
def Obligations.WordsOfTheTablesDecode : Prop :=
  decode (.stimulus (.request 0x39)) = .ok (.lcRead 25) ∧
  decode (.stimulus (.request 0x3C)) = .ok (.lcRead 28) ∧
  decode (.stimulus (.request 0x60)) = .ok .htRead ∧
  decode (.stimulus (.request 0xE0)) = .ok .poll ∧
  decode (.frame 0x46303530) = .ok (.cmdF 0x30 0x35 0x30) ∧
  decode (.frame 0x51000000) = .ok (.cmdQ 0 0 0) ∧
  decode (.frame 0x31323334) = .error (.unknownCommand 0x31)

/-! ## The step -/

/-- R69, R80: which stimulus is next, and that the step runs its instruction (logs 2 and 3).
A held word is taken as soon as main level is free; with nothing to come the machine is idle. -/
def Obligations.StepRunsTheDecodedInstruction : Prop :=
  ∀ s : State,
    (∀ x xs i, s.held = [] → s.inbox = x :: xs → decode (.stimulus x) = .ok i →
      step s = exec i { s with inbox := xs }) ∧
    (∀ w ws i, s.held = w :: ws → mainBusy s = false → decode (.stimulus (.request w)) = .ok i →
      step s = exec i { s with held := ws }) ∧
    (∀ w ws x xs i, s.held = w :: ws → mainBusy s = true → s.inbox = x :: xs →
      decode (.stimulus x) = .ok i → step s = exec i { s with inbox := xs }) ∧
    (s.inbox = [] → (s.held = [] ∨ mainBusy s = true) → step s = .next s)

/-- R80, R83, R230 (a): a reserved word that is due changes OP_RESP and one sticky bit: when it has been held
and main level is free, and when it comes to a free port; while main level is busy it waits behind the
words that wait already.
The queue of waiting words is the model's (log 3). -/
def Obligations.ReservedWordIsRefusedByTheStep : Prop :=
  ∀ (s : State) (w : OpWord), w.toNat < 0x20 ∨ (0x40 ≤ w.toNat ∧ w.toNat % 32 ≠ 0) →
    (∀ ws, s.held = w :: ws → mainBusy s = false → step s = .next { s with
      held := ws, opResp := .refusedReserved, errSticky := s.errSticky ||| 0x20 }) ∧
    (∀ xs, s.held = [] → s.inbox = .request w :: xs → mainBusy s = false → step s = .next { s with
      inbox := xs, opResp := .refusedReserved, errSticky := s.errSticky ||| 0x20 }) ∧
    (∀ xs, s.inbox = .request w :: xs → mainBusy s = true →
      step s = .next { s with inbox := xs, held := s.held ++ [w] })

/-- R9, R51, R80: while main level is busy every operation request waits at the control port and nothing
else changes; the queue is the model's (log 3). -/
def Obligations.RequestsAreHeldWhileMainIsBusy : Prop :=
  ∀ (i : Instr) (w : OpWord) (s : State),
    encode i = .stimulus (.request w) → mainBusy s = true →
      exec i s = .next { s with held := s.held ++ [w] }

/-- R230 (b) to (f): a refused request changes OP_RESP and one bit of ERR_STICKY and nothing else. -/
def Obligations.RefusedRequestsChangeOnlyRespAndSticky : Prop :=
  ∀ s : State, mainBusy s = false →
    (∀ g : BitVec 5, g ≠ 25 ∧ g ≠ 26 ∧ g ≠ 27 → exec (.lcRead g) s = .next { s with
      opResp := .refusedGain, errSticky := s.errSticky ||| 0x10 }) ∧
    (s.htState ≠ .idle → exec .htStart s = .next { s with
      opResp := .refusedState, errSticky := s.errSticky ||| 0x20 }) ∧
    (s.wakeFired = false ∨ (s.htState ≠ .hold ∧ s.htState ≠ .armed) → exec .htRead s = .next { s with
      opResp := .refusedState, errSticky := s.errSticky ||| 0x20 }) ∧
    (s.lcValid = false ∨ s.txBusy = true → exec .fmtEnc s = .next { s with
      opResp := .refusedState, errSticky := s.errSticky ||| 0x20 }) ∧
    (s.thState = .awaitingWake → s.htState ≠ .idle → exec .seqStep s = .next { s with
      opResp := .refusedState, errSticky := s.errSticky ||| 0x20 })

/-- R230, "No other request is ever refused": an accepted request writes OP_RESP and raises no refusal. -/
def Obligations.OtherRequestsAreAccepted : Prop :=
  ∀ s : State, SafInv s → mainBusy s = false →
    (∀ g : BitVec 5, g = 25 ∨ g = 26 ∨ g = 27 →
      ∃ t, exec (.lcRead g) s = .next t ∧ t.opResp = .accepted ∧ t.errSticky = s.errSticky) ∧
    (∃ t, exec .cmdTake s = .next t ∧ t.opResp = .accepted ∧
      t.errSticky &&& 0x20 = s.errSticky &&& 0x20) ∧
    (s.thState ≠ .awaitingWake ∨ s.htState = .idle →
      ∃ t, exec .seqStep s = .next t ∧ t.opResp = .accepted ∧ t.errSticky = s.errSticky) ∧
    (∃ t, exec .poll s = .next t ∧ t.opResp = .accepted ∧ t.errSticky = s.errSticky)

/-- R9, R85: an event whose enabling condition is false does not occur: the model's state stays (log 5). -/
def Obligations.EventsThatAreNotEnabledDoNotOccur : Prop :=
  ∀ s : State,
    (s.txBusy = false → exec .txPop s = .next s) ∧
    (s.wakeArmed = false → exec .wakeFire s = .next s) ∧
    (s.htState ≠ .hold → exec .htRelease s = .next s) ∧
    (∀ d, s.lcState = .idle → exec (.lcStep d) s = .next s) ∧
    (∀ l, s.htState = .idle ∨ s.htState = .hold ∨ s.htState = .armed →
      exec (.htStep l) s = .next s) ∧
    (s.pollPhase = .idle ∨ unitBusy s = true → exec .pollStep s = .next s)

/-! ## LCSER -/

/-- R101: an accepted LC.READ latches the gain, clears the shift register and the pulse count, drops the
old sample and waits for data ready; lc_wait is cleared where LC_TIMEOUT is finite. -/
def Obligations.LcReadAccepted : Prop :=
  ∀ (s : State) (g : BitVec 5), mainBusy s = false → g = 25 ∨ g = 26 ∨ g = 27 →
    (∀ n, s.cfg.lcTimeout = some n → exec (.lcRead g) s = .next { s with
      opResp := .accepted, lcGain := g, lcShreg := 0, lcBitcnt := 0, lcWait := 0,
      lcValid := false, lcStatus := .none, lcState := .wait }) ∧
    (s.cfg.lcTimeout = none → exec (.lcRead g) s = .next { s with
      opResp := .accepted, lcGain := g, lcShreg := 0, lcBitcnt := 0,
      lcValid := false, lcStatus := .none, lcState := .wait })

/-- R103: in LC_WAIT a ready sample starts the shift; a sample that is not ready changes nothing when
LC_TIMEOUT is infinite, and otherwise counts, the LC_TIMEOUT-th ending the read as NOT_READY.
The premise on lc_wait is the range that `LcInv` gives it in LC_WAIT. -/
def Obligations.LcStepWaitsForDataReady : Prop :=
  ∀ (s : State) (d : Level), s.lcState = .wait →
    (d = s.cfg.drdyActive → exec (.lcStep d) s = .next { s with lcState := .shift }) ∧
    (d ≠ s.cfg.drdyActive → s.cfg.lcTimeout = none → exec (.lcStep d) s = .next s) ∧
    (∀ n, d ≠ s.cfg.drdyActive → s.cfg.lcTimeout = some n → s.lcWait + 1 < n →
      exec (.lcStep d) s = .next { s with lcWait := s.lcWait + 1 }) ∧
    (∀ n, d ≠ s.cfg.drdyActive → s.cfg.lcTimeout = some n → s.lcWait + 1 = n →
      exec (.lcStep d) s = .next { s with
        lcWait := n, lcStatus := .notReady, lcState := .idle,
        errSticky := s.errSticky ||| 0x08 })

/-- R104: in LC_SHIFT one pulse shifts in one data bit, and the 24th goes on to LC_GAIN. -/
def Obligations.LcStepShiftsInOneBit : Prop :=
  ∀ (s : State) (d : Level), s.lcState = .shift →
    exec (.lcStep d) s = .next { s with
      out := s.out ++ [.lcPulse (s.lcBitcnt.toNat + 1)]
      lcShreg := s.lcShreg.extractLsb' 0 23 ++ d
      lcBitcnt := s.lcBitcnt + 1
      lcSck := 0
      lcState := if s.lcBitcnt = 23 then .gain else .shift }

/-- R105, R106: in LC_GAIN one pulse without capture; the one numbered lc_gain also completes the read,
with the sign in bit 23 and the magnitude by inverting, adding one and keeping 24 bits. -/
def Obligations.LcStepGivesExtraPulsesAndCompletes : Prop :=
  ∀ (s : State) (d : Level), s.lcState = .gain →
    (s.lcBitcnt + 1 ≠ s.lcGain → exec (.lcStep d) s = .next { s with
      out := s.out ++ [.lcPulse (s.lcBitcnt.toNat + 1)]
      lcBitcnt := s.lcBitcnt + 1
      lcSck := 0 }) ∧
    (s.lcBitcnt + 1 = s.lcGain → exec (.lcStep d) s = .next { s with
      out := s.out ++ [.lcPulse (s.lcBitcnt.toNat + 1)]
      lcBitcnt := s.lcBitcnt + 1
      lcSck := 0
      lcRaw := s.lcShreg
      lcNeg := s.lcShreg.getLsbD 23
      lcMag := if s.lcShreg.getLsbD 23 then ~~~s.lcShreg + 1 else s.lcShreg
      lcGainUsed := s.lcGain
      lcValid := true
      lcStatus := .ok
      lcState := .idle })

/-- R23, R106: the sample a read completes with has the sign and magnitude of its word, so that its value
is the word in two's complement, and there is no negative zero. -/
def Obligations.CompletedSampleIsTwosComplement : Prop :=
  ∀ (s t : State) (d : Level), s.lcState = .gain → s.lcBitcnt + 1 = s.lcGain →
    exec (.lcStep d) s = .next t →
      lcValue t = s.lcShreg.toInt ∧ t.lcMag.toNat = s.lcShreg.toInt.natAbs ∧
      t.lcNeg = decide (s.lcShreg.toInt < 0) ∧ (t.lcNeg = true → 1 ≤ t.lcMag.toNat)

/-- R107: the round trip of the acquisition. From the first data pulse of a read at a legal gain, the 24
bits of the pattern of `v`, most significant first, and any draws at the extra pulses complete the read
with the value `v`. -/
def Obligations.LoadCellReadRoundTrip : Prop :=
  ∀ (s : State) (v : Int) (extra : List Level),
    s.lcState = .shift → s.lcBitcnt = 0 → gainLegal s.lcGain = true →
    extra.length = s.lcGain.toNat - 24 → -(2 ^ 23) ≤ v → v ≤ 2 ^ 23 - 1 →
      ∃ t, runAll (lcDraws (BitVec.ofInt 24 v) ++ extra.map .lcStep) s = .next t ∧
        t.lcState = .idle ∧ t.lcValid = true ∧ lcValue t = v ∧
        (t.lcRaw.toNat : Int) = v % 2 ^ 24 ∧ (t.lcNeg = true ↔ v < 0) ∧ t.lcMag.toNat = v.natAbs

/-- R108: a read that completes issues exactly lc_gain pulses, numbered 1 to lc_gain, and leaves lc_bitcnt
at lc_gain; with the frame of the whole read. -/
def Obligations.CompletedReadIssuesGainPulses : Prop :=
  ∀ (s t : State) (data extra : List Level),
    s.lcState = .shift → s.lcBitcnt = 0 → gainLegal s.lcGain = true →
    data.length = 24 → extra.length = s.lcGain.toNat - 24 →
    runAll ((data ++ extra).map .lcStep) s = .next t →
      t.lcState = .idle ∧ t.lcBitcnt = s.lcGain ∧ t.lcGainUsed = s.lcGain ∧
      t.out = s.out ++ (List.range s.lcGain.toNat).map (fun k => .lcPulse (k + 1)) ∧
      t.rxBuf = s.rxBuf ∧ t.cmdHold = s.cmdHold ∧ t.txBuf = s.txBuf ∧ t.htState = s.htState ∧
      t.errSticky = s.errSticky ∧ t.opResp = s.opResp

/-! ## HTRX -/

/-- R121: an accepted HT.START drives the line low, arms the wake timer and does not occupy main level. -/
def Obligations.HtStartAccepted : Prop :=
  ∀ s : State, mainBusy s = false → s.htState = .idle →
    exec .htStart s = .next { s with
      opResp := .accepted, htDir := 1, htOut := 0, htState := .hold, wakeArmed := true,
      wakeFired := false, out := s.out ++ [.htArm] } ∧
    (∀ t, exec .htStart s = .next t → mainBusy t = false)

/-- R124: HT.RELEASE releases the line of a wake sequence. -/
def Obligations.HtReleaseReleasesTheLine : Prop :=
  ∀ s : State, s.htState = .hold →
    exec .htRelease s = .next { s with htDir := 0, htState := .armed }

/-- R125: WAKE.FIRE disarms the timer and records that the wake latency has elapsed. -/
def Obligations.WakeFireRecordsTheLatency : Prop :=
  ∀ s : State, s.wakeArmed = true →
    exec .wakeFire s = .next { s with wakeArmed := false, wakeFired := true }

/-- R128: an accepted HT.READ consumes wake_fired, releases the line and waits for the acknowledgement;
main level is busy from then on. -/
def Obligations.HtReadAccepted : Prop :=
  ∀ s : State, mainBusy s = false → s.wakeFired = true → s.htState = .hold ∨ s.htState = .armed →
    exec .htRead s = .next { s with
      opResp := .accepted, wakeFired := false, htDir := 0, htShreg := 0, htBitidx := 0, htTo := 0,
      htStatus := .none, htState := .w1 } ∧
    (∀ t, exec .htRead s = .next t → mainBusy t = true)

/-- R129, R130: a wait that sees its target level goes on to the next state with its count cleared, end of
frame aside. -/
def Obligations.HtStepWaitSeesItsTarget : Prop :=
  ∀ s : State,
    (s.htState = .w1 → exec (.htStep 0) s = .next { s with htTo := 0, htState := .w2 }) ∧
    (s.htState = .w2 → exec (.htStep 1) s = .next { s with htTo := 0, htState := .w3 }) ∧
    (s.htState = .w3 → exec (.htStep 0) s = .next { s with htTo := 0, htState := .bwh }) ∧
    (s.htState = .bwh → exec (.htStep 1) s = .next { s with htTo := 0, htState := .bsmp }) ∧
    (s.htState = .bwl → s.htBitidx < 40 →
      exec (.htStep 0) s = .next { s with htTo := 0, htState := .bwh })

/-- R130, R131, R139: a sample at the wrong level counts, and the HT_TO-th aborts the read: the line idle,
no reading available, the failure recorded, HT_FRAME kept, and the scheduler sent to rest. -/
def Obligations.HtStepMissCountsThenTimesOut : Prop :=
  ∀ (s : State) (l : Level),
    ((s.htState = .w1 ∨ s.htState = .w3 ∨ s.htState = .bwl) ∧ l = 1) ∨
      ((s.htState = .w2 ∨ s.htState = .bwh) ∧ l = 0) →
    (s.htTo + 1 < s.cfg.htTo → exec (.htStep l) s = .next { s with htTo := s.htTo + 1 }) ∧
    (s.htTo + 1 = s.cfg.htTo → exec (.htStep l) s = .next { s with
      htTo := s.cfg.htTo, htStatus := .timeout, htDir := 1, htOut := 1, htState := .idle,
      htNew := false, htFail := true, errSticky := s.errSticky ||| 0x01,
      thState := if s.thState = .sampling then .waitingRest else s.thState,
      restCnt := if s.thState = .sampling then 0 else s.restCnt })

/-- R134: the level at the threshold is the next bit, most significant first. -/
def Obligations.HtStepSamplesOneBit : Prop :=
  ∀ (s : State) (v : Level), s.htState = .bsmp →
    exec (.htStep v) s = .next { s with
      htShreg := s.htShreg.extractLsb' 0 39 ++ v, htBitidx := s.htBitidx + 1, htTo := 0,
      htState := .bwl }

/-- R135, R136, R137, R139: the fall after the 40th bit, with the fifth byte the sum of the first four
modulo 256, completes the read with the frame surfaced and the rest signal emitted. -/
def Obligations.HtEndOfFrameSuccess : Prop :=
  ∀ s : State, s.htState = .bwl → s.htBitidx = 40 →
    ((s.htShreg.extractLsb' 32 8).toNat + (s.htShreg.extractLsb' 24 8).toNat +
      (s.htShreg.extractLsb' 16 8).toNat + (s.htShreg.extractLsb' 8 8).toNat) % 256 =
      (s.htShreg.extractLsb' 0 8).toNat →
    exec (.htStep 0) s = .next { s with
      htTo := 0, htFrame := s.htShreg, htStatus := .ok, htDir := 1, htOut := 1, htState := .idle,
      htNew := true, htFail := false, out := s.out ++ [.htRest],
      thState := if s.thState = .sampling then .waitingRest else s.thState,
      restCnt := if s.thState = .sampling then 0 else s.restCnt }

/-- R135, R136, R138, R139: with any other fifth byte the frame is discarded: HT_FRAME is not written and no
rest signal is emitted. -/
def Obligations.HtEndOfFrameChecksumMismatch : Prop :=
  ∀ s : State, s.htState = .bwl → s.htBitidx = 40 →
    ((s.htShreg.extractLsb' 32 8).toNat + (s.htShreg.extractLsb' 24 8).toNat +
      (s.htShreg.extractLsb' 16 8).toNat + (s.htShreg.extractLsb' 8 8).toNat) % 256 ≠
      (s.htShreg.extractLsb' 0 8).toNat →
    exec (.htStep 0) s = .next { s with
      htTo := 0, htStatus := .checksum, htDir := 1, htOut := 1, htState := .idle,
      htNew := false, htFail := true, errSticky := s.errSticky ||| 0x02,
      thState := if s.thState = .sampling then .waitingRest else s.thState,
      restCnt := if s.thState = .sampling then 0 else s.restCnt }

/-- R140: the 40 sampled bits of a read that meets no miss, most significant first, assemble the frame
`f`, and the read succeeds exactly when the checksum is right. -/
def Obligations.HumidityFrameAssembly : Prop :=
  ∀ (s : State) (f : BitVec 40), s.htState = .w1 → s.htBitidx = 0 →
    ∃ t, runAll (htFeed f) s = .next t ∧ t.htShreg = f ∧ t.htBitidx = 40 ∧ t.htState = .idle ∧
      (checksumOk f = true → t.htFrame = f ∧ t.htStatus = .ok ∧ t.htNew = true ∧ t.htFail = false ∧
        t.out = s.out ++ [.htRest] ∧ t.errSticky = s.errSticky) ∧
      (checksumOk f = false → t.htFrame = s.htFrame ∧ t.htStatus = .checksum ∧ t.htNew = false ∧
        t.htFail = true ∧ t.out = s.out ∧ t.errSticky = s.errSticky ||| 0x02)

/-- R27, R131, R138: HT_FRAME is written only by the end of a read whose checksum is right; RESET leaves it
without a value. -/
def Obligations.HtFrameIsWrittenOnlyBySuccess : Prop :=
  ∀ (i : Instr) (s t : State), exec i s = .next t → t.htFrame ≠ s.htFrame →
    i = .reset ∨
      (i = .htStep 0 ∧ s.htState = .bwl ∧ s.htBitidx = 40 ∧ checksumOk s.htShreg = true ∧
        t.htFrame = s.htShreg)

/-- R127, R153: no instruction starts a humidity read before the wake latency has elapsed. -/
def Obligations.HumidityReadStartsOnlyAfterWake : Prop :=
  ∀ (i : Instr) (s t : State), exec i s = .next t →
    s.htState.reading = false → t.htState.reading = true →
      s.wakeFired = true ∧ (s.htState = .hold ∨ s.htState = .armed) ∧ t.wakeFired = false

/-! ## SEQ -/

/-- R150: TICK counts the cadence and raises sample_now on reaching CAD_THRESH.
The premise is the range that `SeqInv` gives cad_cnt. -/
def Obligations.TickCountsTheCadence : Prop :=
  ∀ s : State, s.cadCnt < s.cfg.cadThresh →
    (s.cadCnt + 1 = s.cfg.cadThresh →
      exec .tick s = .next { s with cadCnt := 0, sampleNow := true }) ∧
    (s.cadCnt + 1 ≠ s.cfg.cadThresh → exec .tick s = .next { s with cadCnt := s.cadCnt + 1 })

/-- R152: a poll in AwaitingWake starts a wake sequence, and is refused while HTRX is not idle. -/
def Obligations.SeqStepStartsTheWakeSequence : Prop :=
  ∀ s : State, mainBusy s = false → s.thState = .awaitingWake →
    (s.htState = .idle → exec .seqStep s = .next { s with
      opResp := .accepted, htDir := 1, htOut := 0, htState := .hold, wakeArmed := true,
      wakeFired := false, out := s.out ++ [.htArm], thState := .waitingWake }) ∧
    (s.htState ≠ .idle → exec .seqStep s = .next { s with
      opResp := .refusedState, errSticky := s.errSticky ||| 0x20 })

/-- R153: a poll in WaitingWake starts the read once the wake latency has elapsed, and else changes nothing. -/
def Obligations.SeqStepReadsOnceAwake : Prop :=
  ∀ s : State, mainBusy s = false → s.thState = .waitingWake →
    (s.wakeFired = true ∧ (s.htState = .hold ∨ s.htState = .armed) →
      exec .seqStep s = .next { s with
        opResp := .accepted, wakeFired := false, htDir := 0, htShreg := 0, htBitidx := 0, htTo := 0,
        htStatus := .none, htState := .w1, thState := .sampling }) ∧
    (¬(s.wakeFired = true ∧ (s.htState = .hold ∨ s.htState = .armed)) →
      exec .seqStep s = .next { s with opResp := .accepted })

/-- R155: a poll in WaitingRest counts, and the N_REST-th poll after entering it leaves it: exactly N_REST
polls are spent there.
The premise on rest_cnt is the range that `SeqInv` gives it there. -/
def Obligations.SeqStepCountsTheRest : Prop :=
  ∀ s : State, mainBusy s = false → s.thState = .waitingRest → s.restCnt < s.cfg.nRest →
    (s.restCnt + 1 < s.cfg.nRest → exec .seqStep s = .next { s with
      opResp := .accepted, restCnt := s.restCnt + 1 }) ∧
    (s.restCnt + 1 = s.cfg.nRest → exec .seqStep s = .next { s with
      opResp := .accepted, restCnt := s.cfg.nRest, thState := .awaitingWake }) ∧
    (s.restCnt = 0 →
      (∀ n, 0 < n → n < s.cfg.nRest → runAll (List.replicate n .seqStep) s = .next { s with
        opResp := .accepted, restCnt := n }) ∧
      runAll (List.replicate s.cfg.nRest .seqStep) s = .next { s with
        opResp := .accepted, restCnt := s.cfg.nRest, thState := .awaitingWake })

/-- R154, R83: a poll in Sampling with main level free, which no run from reset reaches, changes nothing but
the response (log 13). -/
def Obligations.SeqStepInSamplingIsOnlyAccepted : Prop :=
  ∀ s : State, mainBusy s = false → s.thState = .sampling →
    exec .seqStep s = .next { s with opResp := .accepted }

/-- R160: POLL starts the micro-sequence, unless main processing is suspended. -/
def Obligations.PollStartsTheMicroSequence : Prop :=
  ∀ s : State, mainBusy s = false →
    (s.suspended = false → exec .poll s = .next { s with opResp := .accepted, pollPhase := .seq }) ∧
    (s.suspended = true → exec .poll s = .next { s with opResp := .accepted })

/-- R161, R162: the phase PP_SEQ does what SEQ.STEP does, without writing OP_RESP, and goes on to PP_LC. -/
def Obligations.PollStepSequencerPhase : Prop :=
  ∀ s : State, unitBusy s = false → s.pollPhase = .seq →
    ∃ u, exec .seqStep { s with pollPhase := .idle } = .next u ∧
      exec .pollStep s = .next { u with opResp := s.opResp, pollPhase := .lc }

/-- R163: the phase PP_LC starts a read at POLL_GAIN on the cadence, and else goes on to PP_CMD. -/
def Obligations.PollStepLoadCellPhase : Prop :=
  ∀ s : State, unitBusy s = false → s.pollPhase = .lc →
    (s.sampleNow = true → exec .pollStep s = .next { s with
      sampleNow := false, lcGain := s.cfg.pollGain, lcShreg := 0, lcBitcnt := 0,
      lcWait := if s.cfg.lcTimeout = none then s.lcWait else 0,
      lcValid := false, lcStatus := .none, lcState := .wait, pollPhase := .enc }) ∧
    (s.sampleNow = false → exec .pollStep s = .next { s with pollPhase := .cmd })

/-- R161, R164: the phase PP_ENC does what FMT.ENC does when a sample is valid, without writing OP_RESP; a
frame refused because the last one still streams is dropped. -/
def Obligations.PollStepEncodePhase : Prop :=
  ∀ s : State, unitBusy s = false → s.pollPhase = .enc →
    (s.lcValid = true → ∃ u, exec .fmtEnc { s with pollPhase := .idle } = .next u ∧
      exec .pollStep s = .next { u with opResp := s.opResp, pollPhase := .cmd }) ∧
    (s.lcValid = false → exec .pollStep s = .next { s with pollPhase := .cmd })

/-- R165: the phase PP_CMD does what CMD.TAKE does when a frame has ended, without writing OP_RESP.
The premise on RX_BUF is what `RxInv` gives an ended frame. -/
def Obligations.PollStepCommandPhase : Prop :=
  ∀ s : State, unitBusy s = false → s.pollPhase = .cmd →
    (s.rxEof = true → s.rxBuf.writtenBelow 4 = true →
      ∃ u, exec .cmdTake { s with pollPhase := .idle } = .next u ∧
        exec .pollStep s = .next { u with opResp := s.opResp, pollPhase := .idle }) ∧
    (s.rxEof = false → exec .pollStep s = .next { s with pollPhase := .idle })

/-! ## FMT and TX -/

/-- R180: an accepted FMT.ENC writes the frame of the state to TX_BUF from index 0 and starts streaming;
ht_new is consumed and no other byte of any memory changes. -/
def Obligations.FmtEncWritesTheFrame : Prop :=
  ∀ s : State, mainBusy s = false → s.lcValid = true → s.txBusy = false →
    ∃ t, exec .fmtEnc s = .next t ∧
      t = { s with opResp := .accepted, txBuf := t.txBuf, txIdx := 0, txBusy := true, htNew := false } ∧
      (∀ a, (h : a < (telemetryFrame s).length) → t.txBuf.read a = some ((telemetryFrame s)[a])) ∧
      (∀ a, (telemetryFrame s).length ≤ a → t.txBuf.read a = s.txBuf.read a)

/-- R187: the frame has FRAME_W bytes in every case, and each of them is one of the characters of a frame;
which of them stand in a TEMP field whose width is not 3 is free (log 14). -/
def Obligations.TelemetryFrameHasConstantWidth : Prop :=
  ∀ s : State, (telemetryFrame s).length = s.cfg.frameW ∧
    ∀ b ∈ telemetryFrame s,
      (0x30 ≤ b ∧ b ≤ 0x39) ∨ b = 0x2D ∨ b = s.cfg.tsignPos ∨ b = 0x58 ∨ b = 0x45 ∨ b = s.cfg.sep ∨
        b = s.cfg.term0 ∨ b = s.cfg.term1

/-- R91, R182 to R186: the frame of the default layout in its three cases, after the load field. -/
def Obligations.DefaultLayoutFrame : Prop :=
  ∀ s : State, s.cfg.layout = Config.default.layout → s.cfg.tempW = 3 →
    (telemetryFrame s).take 8 = loadField s ∧
    (s.htNew = true → (telemetryFrame s).drop 8 =
      [s.cfg.sep, asc ((s.htFrame.extractLsb' 32 8).toNat / 10 % 10),
        asc ((s.htFrame.extractLsb' 32 8).toNat % 10), s.cfg.sep,
        if s.htFrame.getLsbD 23 then 0x2D else s.cfg.tsignPos,
        asc ((s.htFrame.extractLsb' 16 7).toNat / 10 % 10),
        asc ((s.htFrame.extractLsb' 16 7).toNat % 10), s.cfg.sep, s.cfg.term0, s.cfg.term1]) ∧
    (s.htNew = false → s.htFail = false → (telemetryFrame s).drop 8 =
      [s.cfg.sep, 0x58, 0x58, s.cfg.sep, 0x58, 0x58, 0x58, s.cfg.sep, s.cfg.term0, s.cfg.term1]) ∧
    (s.htNew = false → s.htFail = true → (telemetryFrame s).drop 8 =
      [s.cfg.sep, 0x45, 0x58, s.cfg.sep, 0x58, 0x58, 0x58, s.cfg.sep, s.cfg.term0, s.cfg.term1])

/-- The eight decimal digits of R188, most significant first, zero-padded. -/
def eightDigits (n : Nat) : List Byte :=
  (List.range 8).map (fun j => asc (n / 10 ^ (7 - j) % 10))

/-- R181: the load field is the eight digits of the magnitude, and of a negative sample the zero next to the
first significant digit is the minus sign; a receiver reads the sample's value back from it.
The premises are what `LcInv` gives a valid sample (R23, R106). -/
def Obligations.LoadFieldReadsBackTheSample : Prop :=
  ∀ s : State, s.lcMag.toNat ≤ 8388608 → (s.lcNeg = true → 1 ≤ s.lcMag.toNat) →
    (s.lcNeg = false → loadField s = eightDigits s.lcMag.toNat) ∧
    (s.lcNeg = true → ∃ k, 0 < k ∧ k < 8 ∧
      (∀ j < k, (eightDigits s.lcMag.toNat)[j]? = some 0x30) ∧
      (eightDigits s.lcMag.toNat)[k]? ≠ some 0x30 ∧
      (loadField s)[k - 1]? = some 0x2D ∧
      ∀ j, j ≠ k - 1 → (loadField s)[j]? = (eightDigits s.lcMag.toNat)[j]?) ∧
    (loadField s).length = 8 ∧ loadFieldValue (loadField s) = some (lcValue s)

/-- R166: with no humidity reading pending, CAD_THRESH ticks and one POLL whose load-cell read returns the
word `w` leave a frame in TX_BUF whose load field is that of the sign and magnitude of `w` (R106, R181) and
whose humidity and temperature fields hold placeholders.
The premise on th_state says that the poll starts no humidity read (R153). -/
def Obligations.CadenceWithoutReadingYieldsPlaceholders : Prop :=
  ∀ (s : State) (w : BitVec 24) (load : List Byte), SafInv s → mainBusy s = false → s.suspended = false →
    s.htNew = false → s.htFail = false → ¬(s.thState = .waitingWake ∧ s.wakeFired = true) →
    s.txBusy = false → s.cfg.layout = Config.default.layout → s.cfg.tempW = 3 →
    load = loadField { s with
      lcNeg := w.getLsbD 23, lcMag := if w.getLsbD 23 then ~~~w + 1 else w } →
    ∃ t, runAll (List.replicate s.cfg.cadThresh .tick ++ [.poll, .pollStep, .pollStep] ++
        lcFeed s.cfg s.cfg.pollGain w ++ [.pollStep]) s = .next t ∧
      t.txBusy = true ∧ t.txIdx = 0 ∧ load.length = 8 ∧ loadFieldValue load = some w.toInt ∧
      ∀ a < 18, t.txBuf.read a = (load ++ [s.cfg.sep, 0x58, 0x58, s.cfg.sep, 0x58, 0x58, 0x58, s.cfg.sep,
        s.cfg.term0, s.cfg.term1])[a]?

/-- R190: TX.POP hands the byte at tx_idx to the transport, and the last one ends the frame.
The premises are what `TxInv` gives while a frame is streamed. -/
def Obligations.TxPopStreamsTheNextByte : Prop :=
  ∀ (s : State) (b : Byte), s.txBusy = true → s.txIdx < s.cfg.frameW → s.txBuf.read s.txIdx = some b →
    (s.txIdx + 1 < s.cfg.frameW → exec .txPop s = .next { s with
      out := s.out ++ [.txByte b], txIdx := s.txIdx + 1 }) ∧
    (s.txIdx + 1 = s.cfg.frameW → exec .txPop s = .next { s with
      out := s.out ++ [.txByte b], txIdx := s.cfg.frameW, txBusy := false })

/-! ## CRX -/

/-- R200, R217: a received byte is stored at rx_idx, a command character restarting the frame at index 0,
and the byte stored at index 3 raises end-of-frame; every other byte of memory is unchanged.
The premise is the range that `RxInv` gives rx_idx. -/
def Obligations.RxByteStoresAndFrames : Prop :=
  ∀ (s : State) (b : Byte) (a : BitVec 3), s.rxIdx < 4 →
    a = (if b = 0x51 ∨ b = 0x53 ∨ b = 0x46 ∨ b = 0x52 ∨ b = 0x47 ∨ b = 0x4D ∨ b = 0x4E
      then 0 else s.rxIdx) →
    ∃ t, exec (.rxByte b) s = .next t ∧
      t = { s with rxBuf := t.rxBuf, rxIdx := if a = 3 then 0 else a + 1,
                   rxEof := if a = 3 then true else s.rxEof } ∧
      t.rxBuf.read a.toNat = some b ∧ ∀ k, k ≠ a.toNat → t.rxBuf.read k = s.rxBuf.read k

/-- R205, R206, R216: CMD.TAKE without a frame does nothing; with one it copies the four bytes to CMD_HOLD,
clears the end-of-frame signal and runs the command they decode to, or raises MalformedCommand.
That a command runs by its own `exec` is the model's reading of the table's command rows (log 17). -/
def Obligations.CmdTakeCopiesAndDispatches : Prop :=
  ∀ s : State, mainBusy s = false →
    (s.rxEof = false → exec .cmdTake s = .next { s with opResp := .accepted }) ∧
    (∀ c d2 d1 d0 : Byte, s.rxEof = true →
      s.rxBuf.read 0 = some c → s.rxBuf.read 1 = some d2 → s.rxBuf.read 2 = some d1 →
      s.rxBuf.read 3 = some d0 →
      ∃ u, u = { s with cmdHold := u.cmdHold, rxEof := false } ∧
        u.cmdHold.read 0 = some c ∧ u.cmdHold.read 1 = some d2 ∧ u.cmdHold.read 2 = some d1 ∧
        u.cmdHold.read 3 = some d0 ∧ (∀ k, 4 ≤ k → u.cmdHold.read k = s.cmdHold.read k) ∧
        (∀ i, decode (.frame (Frame.ofBytes c d2 d1 d0)) = .ok i →
          ∃ v, exec i u = .next v ∧ exec .cmdTake s = .next { v with opResp := .accepted }) ∧
        (∀ e, decode (.frame (Frame.ofBytes c d2 d1 d0)) = .error e →
          exec .cmdTake s = .next { u with
            opResp := .accepted, errSticky := s.errSticky ||| 0x04 }))

/-- R211: command Q halts the actuator and suspends main processing; act_pct is unspecified (log 8). -/
def Obligations.CommandQHaltsAndSuspends : Prop :=
  ∀ (s : State) (d2 d1 d0 : Byte),
    ∃ t, exec (.cmdQ d2 d1 d0) s = .next t ∧ t = { s with
      actClass := .halt, actLetter := 0x51, actPctOk := false, suspended := true,
      out := s.out ++ [.actCmd .halt 0x51 t.actPct false], actPct := t.actPct, fresh := t.fresh }

/-- R207, R214, R215: commands S, M and N write their class and letter, hold no percentage (act_pct is
unspecified, log 8) and leave main processing running. -/
def Obligations.CommandsStopAndSpray : Prop :=
  ∀ (s : State) (d2 d1 d0 : Byte),
    (∃ t, exec (.cmdS d2 d1 d0) s = .next t ∧ t = { s with
      actClass := .stop, actLetter := 0x53, actPctOk := false,
      out := s.out ++ [.actCmd .stop 0x53 t.actPct false], actPct := t.actPct, fresh := t.fresh }) ∧
    (∃ t, exec (.cmdM d2 d1 d0) s = .next t ∧ t = { s with
      actClass := .sprayOn, actLetter := 0x4D, actPctOk := false,
      out := s.out ++ [.actCmd .sprayOn 0x4D t.actPct false], actPct := t.actPct, fresh := t.fresh }) ∧
    (∃ t, exec (.cmdN d2 d1 d0) s = .next t ∧ t = { s with
      actClass := .sprayOff, actLetter := 0x4E, actPctOk := false,
      out := s.out ++ [.actCmd .sprayOff 0x4E t.actPct false], actPct := t.actPct, fresh := t.fresh })

/-- The percentage of R209, written out: three digits that form a number of at most 100. -/
def setpointPercentage (d2 d1 d0 : Byte) (p : Nat) : Prop :=
  0x30 ≤ d2 ∧ d2 ≤ 0x39 ∧ 0x30 ≤ d1 ∧ d1 ≤ 0x39 ∧ 0x30 ≤ d0 ∧ d0 ≤ 0x39 ∧
    p + 48 * 111 = 100 * d2.toNat + 10 * d1.toNat + d0.toNat ∧ p ≤ 100

/-- R208, R209, R212, R213: commands F, R and G are setpoints; their digits give the percentage, and where
they give none act_pct_ok is 0 and act_pct is unspecified (log 8). -/
def Obligations.SetpointCommandsParseThePercentage : Prop :=
  ∀ (s : State) (d2 d1 d0 letter : Byte) (i : Instr),
    (i = .cmdF d2 d1 d0 ∧ letter = 0x46) ∨ (i = .cmdR d2 d1 d0 ∧ letter = 0x52) ∨
      (i = .cmdG d2 d1 d0 ∧ letter = 0x47) →
    (∀ p : Nat, setpointPercentage d2 d1 d0 p → exec i s = .next { s with
      actClass := .setpoint, actLetter := letter, actPct := BitVec.ofNat 7 p, actPctOk := true,
      out := s.out ++ [.actCmd .setpoint letter (BitVec.ofNat 7 p) true] }) ∧
    ((∀ p : Nat, ¬setpointPercentage d2 d1 d0 p) → ∃ t, exec i s = .next t ∧ t = { s with
      actClass := .setpoint, actLetter := letter, actPct := t.actPct, actPctOk := false,
      out := s.out ++ [.actCmd .setpoint letter t.actPct false], fresh := t.fresh })

/-! ## RESET -/

/-- R250: RESET writes every register of R50 that has a reset value, and no byte of memory holds a value;
the registers R50 gives no value are unspecified (log 7).
The model's parameters, schedule, held words and emitted events stay (R250; logs 1 to 4). -/
def Obligations.ResetEventRestoresTheResetValues : Prop :=
  ∀ s : State, ∃ t, exec .reset s = .next t ∧
    t = { State.resetWith s.cfg with
      lcRaw := t.lcRaw, lcNeg := t.lcNeg, lcMag := t.lcMag, lcGainUsed := t.lcGainUsed,
      lcShreg := t.lcShreg, htFrame := t.htFrame, htShreg := t.htShreg, actLetter := t.actLetter,
      actPct := t.actPct, inbox := s.inbox, held := s.held, out := s.out, fresh := t.fresh } ∧
    t.lcValid = false ∧ t.lcStatus = .none ∧ t.lcState = .idle ∧ t.lcBitcnt = 0 ∧ t.lcGain = 0 ∧
    t.lcWait = 0 ∧ t.lcSck = 0 ∧ t.htStatus = .none ∧ t.htState = .idle ∧ t.htBitidx = 0 ∧
    t.htTo = 0 ∧ t.htDir = 1 ∧ t.htOut = 1 ∧ t.wakeArmed = false ∧ t.wakeFired = false ∧
    t.htNew = false ∧ t.htFail = false ∧ t.thState = .awaitingWake ∧ t.restCnt = 0 ∧ t.cadCnt = 0 ∧
    t.sampleNow = false ∧ t.pollPhase = .idle ∧ t.suspended = false ∧ t.txIdx = 0 ∧
    t.txBusy = false ∧ t.rxIdx = 0 ∧ t.rxEof = false ∧ t.actClass = .none ∧ t.actPctOk = false ∧
    t.opResp = .accepted ∧ t.errSticky = 0 ∧ mainBusy t = false ∧
    ∀ k, t.rxBuf.read k = none ∧ t.cmdHold.read k = none ∧ t.txBuf.read k = none

/-- R50: the registers of the machine after reset, by number, where R50 gives a value; the parameters are
R7's defaults (log 19). -/
def Obligations.ResetStateHasTheResetValues : Prop :=
  (∀ n ∈ [4, 5, 6, 8, 9, 11, 13, 14, 16, 17, 20, 21, 22, 23, 24, 25, 26, 27, 28, 29, 30, 31, 32, 33, 34,
    37, 38, 39], observeReg State.reset n = some 0) ∧
  observeReg State.reset 18 = some 1 ∧ observeReg State.reset 19 = some 1 ∧
  ∀ k, State.reset.rxBuf.read k = none ∧ State.reset.cmdHold.read k = none ∧
    State.reset.txBuf.read k = none

/-! ## The whole machine -/

/-- Every step keeps the invariant of SAF, from every state that meets it (R23 to R52, R63, R108, R158). -/
def Obligations.StepKeepsTheInvariant : Prop :=
  ∀ s t : State, SafInv s → step s = .next t → SafInv t

/-- The state of R50 meets the invariant, for every legal choice of the parameters. -/
def Obligations.ResetMeetsTheInvariant : Prop :=
  SafInv State.reset ∧ ∀ c : Config, c.legal = true → SafInv (State.resetWith c)

/-- R52, R63: from a state that meets the invariant the machine never stops: no byte without a value is
read and no index leaves its buffer. -/
def Obligations.InvariantStatesNeverStop : Prop :=
  ∀ s : State, SafInv s → ∃ t, step s = .next t

/-- R38, R250: a sticky error bit, once set, and the suspension of main processing are cleared by RESET
only. -/
def Obligations.StickyBitsAreClearedOnlyByReset : Prop :=
  ∀ (i : Instr) (s t : State), i ≠ .reset → exec i s = .next t →
    t.errSticky &&& s.errSticky = s.errSticky ∧ (s.suspended = true → t.suspended = true)

/-- R10, R20: an emitted event stays emitted, and no instruction, RESET included, changes the parameters;
both fields are the model's (logs 1 and 4). -/
def Obligations.ParametersAndEmittedEventsStay : Prop :=
  ∀ (i : Instr) (s t : State), exec i s = .next t → t.cfg = s.cfg ∧ s.out <+: t.out

/-- R60: only RX.BYTE writes RX_BUF, only CMD.TAKE (also inside POLL.STEP) writes CMD_HOLD, only FMT.ENC (also
inside POLL.STEP) writes TX_BUF; RESET takes the values away. -/
def Obligations.OnlyTheListedAccessesWriteMemory : Prop :=
  ∀ (i : Instr) (s t : State), i ≠ .reset → exec i s = .next t →
    ((∀ b, i ≠ .rxByte b) → ∀ k, t.rxBuf.read k = s.rxBuf.read k) ∧
    (i ≠ .cmdTake → ¬(i = .pollStep ∧ s.pollPhase = .cmd) →
      ∀ k, t.cmdHold.read k = s.cmdHold.read k) ∧
    (i ≠ .fmtEnc → ¬(i = .pollStep ∧ s.pollPhase = .enc) → ∀ k, t.txBuf.read k = s.txBuf.read k)

/-- R236: two different interrupt-level events taken in either order leave the same state. -/
def Obligations.InterruptLevelEventsCommute : Prop :=
  ∀ (s : State) (b : Byte) (i j : Instr), SafInv s →
    i ∈ [Instr.tick, .rxByte b, .txPop, .wakeFire, .htRelease] →
    j ∈ [Instr.tick, .rxByte b, .txPop, .wakeFire, .htRelease] → i ≠ j →
      runAll [i, j] s = runAll [j, i] s

/-- R235, R237: an interrupt-level event changes only the registers and bytes its own row names, and never
whether main level is busy. -/
def Obligations.InterruptLevelFrame : Prop :=
  ∀ s t : State,
    (exec .tick s = .next t →
      t = { s with cadCnt := t.cadCnt, sampleNow := t.sampleNow } ∧ mainBusy t = mainBusy s) ∧
    (∀ b, exec (.rxByte b) s = .next t →
      t = { s with rxBuf := t.rxBuf, rxIdx := t.rxIdx, rxEof := t.rxEof } ∧ mainBusy t = mainBusy s) ∧
    (exec .txPop s = .next t →
      t = { s with out := t.out, txIdx := t.txIdx, txBusy := t.txBusy } ∧ mainBusy t = mainBusy s) ∧
    (exec .wakeFire s = .next t →
      t = { s with wakeArmed := t.wakeArmed, wakeFired := t.wakeFired } ∧ mainBusy t = mainBusy s) ∧
    (exec .htRelease s = .next t →
      t = { s with htDir := t.htDir, htState := t.htState } ∧ mainBusy t = mainBusy s)
end

