-- ==== Sys2Proof/Laws/Decode.lean ====
section
/-! SUPPORT. The bits of a command frame, and what they give to the decoder and to the mask of a table row
(Decode.lean; spec/30_encoding.md R88, R90). -/

namespace Sys2Proof

/-- Bit `j` of a frame belongs to the byte whose place R88 gives: index 3 in bits 7:0, index 0 in bits 31:24. -/
theorem Frame.getLsbD_ofBytes (b0 b1 b2 b3 : Byte) (j : Nat) :
    (Frame.ofBytes b0 b1 b2 b3).getLsbD j =
      if j < 8 then b3.getLsbD j else if j < 16 then b2.getLsbD (j - 8)
      else if j < 24 then b1.getLsbD (j - 16) else b0.getLsbD (j - 24) := by
  have e1 := BitVec.getLsbD_append (x := (b0 ++ b1 ++ b2 : BitVec (8 + 8 + 8))) (y := b3) (i := j)
  have e2 := BitVec.getLsbD_append (x := (b0 ++ b1 : BitVec (8 + 8))) (y := b2) (i := j - 8)
  have e3 := BitVec.getLsbD_append (x := b0) (y := b1) (i := j - 8 - 8)
  refine Eq.trans e1 ?_
  rw [e2, e3]
  by_cases h1 : j < 8
  · simp [h1]
  · by_cases h2 : j < 16
    · simp [h1, h2, show j - 8 < 8 by omega]
    · by_cases h3 : j < 24
      · simp [h1, h2, h3, show ¬j - 8 < 8 by omega, Nat.sub_sub, show j - 16 < 8 by omega]
      · simp [h1, h2, h3, show ¬j - 8 < 8 by omega, Nat.sub_sub, show ¬j - 16 < 8 by omega]

/-- The bytes of a frame, index 0 first, are the bytes it was made of. -/
theorem frameByte_ofBytes (b0 b1 b2 b3 : Byte) :
    frameByte (Frame.ofBytes b0 b1 b2 b3) 0 = b0 ∧ frameByte (Frame.ofBytes b0 b1 b2 b3) 1 = b1 ∧
      frameByte (Frame.ofBytes b0 b1 b2 b3) 2 = b2 ∧ frameByte (Frame.ofBytes b0 b1 b2 b3) 3 = b3 := by
  refine ⟨?_, ?_, ?_, ?_⟩ <;> refine BitVec.eq_of_getLsbD_eq fun j hj => ?_
  all_goals rw [frameByte, BitVec.getLsbD_extractLsb', Frame.getLsbD_ofBytes, decide_eq_true hj,
    Bool.true_and]
  · rw [if_neg (by omega), if_neg (by omega), if_neg (by omega), Nat.add_sub_cancel_left]
  · rw [if_neg (by omega), if_neg (by omega), if_pos (by omega), Nat.add_sub_cancel_left]
  · rw [if_neg (by omega), if_pos (by omega), Nat.add_sub_cancel_left]
  · rw [if_pos (by omega), Nat.sub_self, Nat.zero_add]

/-- A frame decodes as its four bytes (R90). -/
theorem decodeFrame_ofBytes (b0 b1 b2 b3 : Byte) :
    decodeFrame (Frame.ofBytes b0 b1 b2 b3) = decodeBytes b0 b1 b2 b3 := by
  obtain ⟨h0, h1, h2, h3⟩ := frameByte_ofBytes b0 b1 b2 b3
  rw [decodeFrame, h0, h1, h2, h3]

/-- The mask of a CMDF row keeps the command character only. -/
theorem Frame.ofBytes_and_mask (b0 b1 b2 b3 : Byte) :
    Frame.ofBytes b0 b1 b2 b3 &&& 0xFF000000 = Frame.ofBytes b0 0 0 0 := by
  have mask : ∀ j < 32, (0xFF000000 : Frame).getLsbD j = decide (24 ≤ j) := by decide
  refine BitVec.eq_of_getLsbD_eq fun j hj => ?_
  rw [BitVec.getLsbD_and, Frame.getLsbD_ofBytes, Frame.getLsbD_ofBytes, mask j hj]
  by_cases h : 24 ≤ j
  · simp [h, show ¬j < 8 by omega, show ¬j < 16 by omega, show ¬j < 24 by omega]
  · simp [h, show j < 24 by omega]

end Sys2Proof
end

