-- ==== Sys2Proof/Laws/Memory.lean ====
section
/-! SUPPORT. The laws of the byte memories: what a read sees after a write, and that every memory operation
keeps the canonical form (Machine/Memory.lean). -/

namespace Sys2Proof.Machine

@[simp] theorem Memory.read_nil (i : Nat) : Memory.read i [] = none := rfl

/-- A read after a write at the same index gives the byte written. -/
@[simp] theorem Memory.read_write_same (i : Nat) (b : Byte) (m : Memory) :
    Memory.read i (Memory.write i b m) = some b := by
  induction m with
  | nil => simp [Memory.write, Memory.read]
  | cons c m ih =>
    simp only [Memory.write]
    split
    · simp [Memory.read]
    · split
      · simp [Memory.read]
      · rename_i h
        simpa [Memory.read, Ne.symm h] using ih

/-- A write leaves every other index alone. -/
theorem Memory.read_write_ne {i j : Nat} (h : j ≠ i) (b : Byte) (m : Memory) :
    Memory.read j (Memory.write i b m) = Memory.read j m := by
  induction m with
  | nil => simp [Memory.write, Memory.read, Ne.symm h]
  | cons c m ih =>
    simp only [Memory.write]
    split
    · simp [Memory.read, Ne.symm h]
    · split
      · rename_i hc
        simp [Memory.read, ← hc, Ne.symm h]
      · simp [Memory.read, ih]

/-- A block write leaves every index outside the block alone. -/
theorem Memory.read_writeBlock_outside (bs : List Byte) :
    ∀ (i : Nat) (m : Memory) (j : Nat), j < i ∨ i + bs.length ≤ j →
      Memory.read j (Memory.writeBlock i bs m) = Memory.read j m := by
  induction bs with
  | nil => intros; rfl
  | cons b bs ih =>
    intro i m j h
    simp only [List.length_cons] at h
    rw [Memory.writeBlock, ih _ _ _ (by omega), Memory.read_write_ne (by omega)]

/-- A block write puts each byte at its index. -/
theorem Memory.read_writeBlock_inside (bs : List Byte) :
    ∀ (i : Nat) (m : Memory) (k : Nat) (hk : k < bs.length),
      Memory.read (i + k) (Memory.writeBlock i bs m) = some bs[k] := by
  induction bs with
  | nil => intro i m k hk; simp at hk
  | cons b bs ih =>
    intro i m k hk
    cases k with
    | zero => rw [Memory.writeBlock, Memory.read_writeBlock_outside _ _ _ _ (by omega)]; simp
    | succ k =>
      have := ih (i + 1) (Memory.write i b m) k (by simpa using hk)
      rw [Memory.writeBlock, show i + (k + 1) = i + 1 + k by omega]
      simpa using this

theorem Memory.rising_tail {c : Host.Cell} {m : Memory} (h : Memory.rising (c :: m) = true) :
    Memory.rising m = true := by
  cases m with
  | nil => rfl
  | cons d m => simp [Memory.rising] at h; exact h.2

/-- The first index after a write: the written one or the old first one. -/
theorem Memory.rising_cons_write {c : Host.Cell} {i : Nat} (b : Byte) {m : Memory} (hi : c.1 < i)
    (hw : Memory.rising (Memory.write i b m) = true) (h : Memory.rising (c :: m) = true) :
    Memory.rising (c :: Memory.write i b m) = true := by
  cases m with
  | nil => simp [Memory.write, Memory.rising, hi]
  | cons d m =>
    simp only [Memory.rising, Bool.and_eq_true, decide_eq_true_eq] at h
    by_cases h1 : i < d.1
    · simp_all [Memory.write, Memory.rising]
    · by_cases h2 : i = d.1
      · simp_all [Memory.write, Memory.rising]
      · simp only [Memory.write, if_neg h1, if_neg h2] at hw ⊢
        simp [Memory.rising, h.1, hw]

/-- A write keeps the indices strictly rising. -/
theorem Memory.write_rising (i : Nat) (b : Byte) (m : Memory) (h : m.rising = true) :
    Memory.rising (Memory.write i b m) = true := by
  induction m with
  | nil => rfl
  | cons c m ih =>
    have ht := ih (Memory.rising_tail h)
    simp only [Memory.write]
    split
    · rename_i hlt
      simp [Memory.rising, hlt, h]
    · split
      · rename_i he
        cases m with
        | nil => rfl
        | cons d m => simpa [Memory.rising, he] using h
      · exact Memory.rising_cons_write b (by omega) ht h

/-- The cells after a write: the written one and old ones. -/
theorem Memory.mem_write {c : Host.Cell} {i : Nat} {b : Byte} {m : Memory}
    (h : c ∈ Memory.write i b m) : c = (i, b) ∨ c ∈ m := by
  induction m with
  | nil => simpa [Memory.write] using h
  | cons d m ih =>
    simp only [Memory.write] at h
    split at h
    · simpa using h
    · split at h <;> simp only [List.mem_cons] at h ⊢ <;> tauto

/-- A write inside the buffer keeps the canonical form. -/
theorem Memory.write_wf {n i : Nat} (b : Byte) {m : Memory} (hi : i < n)
    (h : Memory.wf n m = true) : Memory.wf n (Memory.write i b m) = true := by
  simp only [Memory.wf, Bool.and_eq_true, List.all_eq_true, decide_eq_true_eq] at h ⊢
  refine ⟨Memory.write_rising i b m h.1, fun c hc => ?_⟩
  rcases Memory.mem_write hc with rfl | hc
  · exact hi
  · exact h.2 c hc

/-- A block write inside the buffer keeps the canonical form. -/
theorem Memory.writeBlock_wf {n : Nat} (bs : List Byte) :
    ∀ {i : Nat} {m : Memory}, i + bs.length ≤ n → Memory.wf n m = true →
      Memory.wf n (Memory.writeBlock i bs m) = true := by
  induction bs with
  | nil => intro i m _ h; exact h
  | cons b bs ih =>
    intro i m hi h
    simp only [List.length_cons] at hi
    exact ih (by omega) (Memory.write_wf b (by omega) h)

/-- A written byte stays written. -/
theorem Memory.isSome_read_write {i j : Nat} {b : Byte} {m : Memory}
    (h : (Memory.read j m).isSome = true) : (Memory.read j (Memory.write i b m)).isSome = true := by
  by_cases hj : j = i
  · subst hj; simp
  · rwa [Memory.read_write_ne hj]

theorem Memory.writtenBelow_iff {n : Nat} {m : Memory} :
    m.writtenBelow n = true ↔ ∀ i < n, (Memory.read i m).isSome = true := by
  simp [Memory.writtenBelow]

/-- Writes do not unwrite. -/
theorem Memory.writtenBelow_write {n i : Nat} {b : Byte} {m : Memory}
    (h : m.writtenBelow n = true) : Memory.writtenBelow n (Memory.write i b m) = true := by
  rw [Memory.writtenBelow_iff] at h ⊢
  exact fun j hj => Memory.isSome_read_write (h j hj)

/-- Writing the first unwritten byte extends the written part. -/
theorem Memory.writtenBelow_write_next {n : Nat} {b : Byte} {m : Memory}
    (h : m.writtenBelow n = true) : Memory.writtenBelow (n + 1) (Memory.write n b m) = true := by
  rw [Memory.writtenBelow_iff] at h ⊢
  intro j hj
  by_cases hn : j = n
  · subst hn; simp
  · exact Memory.isSome_read_write (h j (by omega))

/-- A block written from index 0 is written whole. -/
theorem Memory.writtenBelow_writeBlock (bs : List Byte) (m : Memory) :
    Memory.writtenBelow bs.length (Memory.writeBlock 0 bs m) = true := by
  rw [Memory.writtenBelow_iff]
  intro i hi
  have := Memory.read_writeBlock_inside bs 0 m i hi
  simp only [Nat.zero_add] at this
  simp [this]

/-- memRead answers exactly the byte held, inside the buffer. -/
theorem memRead_ok {sp : Space} {i : Nat} {s : State} {b : Byte} :
    memRead sp i s = .ok b ↔ i < spaceSize s.cfg sp ∧ (s.mem sp).read i = some b := by
  unfold memRead
  split
  · split <;> simp_all
  · simp_all

end Sys2Proof.Machine
end

