-- ==== Sys2Proof/Laws/State.lean ====
section
/-! SUPPORT. One lemma per field per named update of State, so that no proof unfolds a record update:
the shared updates of Machine/Ops.lean, the phase change of POLL, the clock pulse and the idle line. -/

namespace Sys2Proof.Machine


/-! ## State.emit -/

@[simp] theorem emit_lcRaw (e : OutEvent) (s : State) : (s.emit e).lcRaw = s.lcRaw := rfl
@[simp] theorem emit_lcNeg (e : OutEvent) (s : State) : (s.emit e).lcNeg = s.lcNeg := rfl
@[simp] theorem emit_lcMag (e : OutEvent) (s : State) : (s.emit e).lcMag = s.lcMag := rfl
@[simp] theorem emit_lcGainUsed (e : OutEvent) (s : State) : (s.emit e).lcGainUsed = s.lcGainUsed := rfl
@[simp] theorem emit_lcValid (e : OutEvent) (s : State) : (s.emit e).lcValid = s.lcValid := rfl
@[simp] theorem emit_lcStatus (e : OutEvent) (s : State) : (s.emit e).lcStatus = s.lcStatus := rfl
@[simp] theorem emit_lcState (e : OutEvent) (s : State) : (s.emit e).lcState = s.lcState := rfl
@[simp] theorem emit_lcShreg (e : OutEvent) (s : State) : (s.emit e).lcShreg = s.lcShreg := rfl
@[simp] theorem emit_lcBitcnt (e : OutEvent) (s : State) : (s.emit e).lcBitcnt = s.lcBitcnt := rfl
@[simp] theorem emit_lcGain (e : OutEvent) (s : State) : (s.emit e).lcGain = s.lcGain := rfl
@[simp] theorem emit_lcWait (e : OutEvent) (s : State) : (s.emit e).lcWait = s.lcWait := rfl
@[simp] theorem emit_lcSck (e : OutEvent) (s : State) : (s.emit e).lcSck = s.lcSck := rfl
@[simp] theorem emit_htFrame (e : OutEvent) (s : State) : (s.emit e).htFrame = s.htFrame := rfl
@[simp] theorem emit_htStatus (e : OutEvent) (s : State) : (s.emit e).htStatus = s.htStatus := rfl
@[simp] theorem emit_htState (e : OutEvent) (s : State) : (s.emit e).htState = s.htState := rfl
@[simp] theorem emit_htShreg (e : OutEvent) (s : State) : (s.emit e).htShreg = s.htShreg := rfl
@[simp] theorem emit_htBitidx (e : OutEvent) (s : State) : (s.emit e).htBitidx = s.htBitidx := rfl
@[simp] theorem emit_htTo (e : OutEvent) (s : State) : (s.emit e).htTo = s.htTo := rfl
@[simp] theorem emit_htDir (e : OutEvent) (s : State) : (s.emit e).htDir = s.htDir := rfl
@[simp] theorem emit_htOut (e : OutEvent) (s : State) : (s.emit e).htOut = s.htOut := rfl
@[simp] theorem emit_wakeArmed (e : OutEvent) (s : State) : (s.emit e).wakeArmed = s.wakeArmed := rfl
@[simp] theorem emit_wakeFired (e : OutEvent) (s : State) : (s.emit e).wakeFired = s.wakeFired := rfl
@[simp] theorem emit_htNew (e : OutEvent) (s : State) : (s.emit e).htNew = s.htNew := rfl
@[simp] theorem emit_htFail (e : OutEvent) (s : State) : (s.emit e).htFail = s.htFail := rfl
@[simp] theorem emit_thState (e : OutEvent) (s : State) : (s.emit e).thState = s.thState := rfl
@[simp] theorem emit_restCnt (e : OutEvent) (s : State) : (s.emit e).restCnt = s.restCnt := rfl
@[simp] theorem emit_cadCnt (e : OutEvent) (s : State) : (s.emit e).cadCnt = s.cadCnt := rfl
@[simp] theorem emit_sampleNow (e : OutEvent) (s : State) : (s.emit e).sampleNow = s.sampleNow := rfl
@[simp] theorem emit_pollPhase (e : OutEvent) (s : State) : (s.emit e).pollPhase = s.pollPhase := rfl
@[simp] theorem emit_suspended (e : OutEvent) (s : State) : (s.emit e).suspended = s.suspended := rfl
@[simp] theorem emit_txIdx (e : OutEvent) (s : State) : (s.emit e).txIdx = s.txIdx := rfl
@[simp] theorem emit_txBusy (e : OutEvent) (s : State) : (s.emit e).txBusy = s.txBusy := rfl
@[simp] theorem emit_rxIdx (e : OutEvent) (s : State) : (s.emit e).rxIdx = s.rxIdx := rfl
@[simp] theorem emit_rxEof (e : OutEvent) (s : State) : (s.emit e).rxEof = s.rxEof := rfl
@[simp] theorem emit_actClass (e : OutEvent) (s : State) : (s.emit e).actClass = s.actClass := rfl
@[simp] theorem emit_actLetter (e : OutEvent) (s : State) : (s.emit e).actLetter = s.actLetter := rfl
@[simp] theorem emit_actPct (e : OutEvent) (s : State) : (s.emit e).actPct = s.actPct := rfl
@[simp] theorem emit_actPctOk (e : OutEvent) (s : State) : (s.emit e).actPctOk = s.actPctOk := rfl
@[simp] theorem emit_opResp (e : OutEvent) (s : State) : (s.emit e).opResp = s.opResp := rfl
@[simp] theorem emit_errSticky (e : OutEvent) (s : State) : (s.emit e).errSticky = s.errSticky := rfl
@[simp] theorem emit_rxBuf (e : OutEvent) (s : State) : (s.emit e).rxBuf = s.rxBuf := rfl
@[simp] theorem emit_cmdHold (e : OutEvent) (s : State) : (s.emit e).cmdHold = s.cmdHold := rfl
@[simp] theorem emit_txBuf (e : OutEvent) (s : State) : (s.emit e).txBuf = s.txBuf := rfl
@[simp] theorem emit_cfg (e : OutEvent) (s : State) : (s.emit e).cfg = s.cfg := rfl
@[simp] theorem emit_inbox (e : OutEvent) (s : State) : (s.emit e).inbox = s.inbox := rfl
@[simp] theorem emit_held (e : OutEvent) (s : State) : (s.emit e).held = s.held := rfl
@[simp] theorem emit_out (e : OutEvent) (s : State) : (s.emit e).out = s.out ++ [e] := rfl
@[simp] theorem emit_fresh (e : OutEvent) (s : State) : (s.emit e).fresh = s.fresh := rfl

/-! ## State.raise -/

@[simp] theorem raise_lcRaw (e : ErrorCause) (s : State) : (s.raise e).lcRaw = s.lcRaw := rfl
@[simp] theorem raise_lcNeg (e : ErrorCause) (s : State) : (s.raise e).lcNeg = s.lcNeg := rfl
@[simp] theorem raise_lcMag (e : ErrorCause) (s : State) : (s.raise e).lcMag = s.lcMag := rfl
@[simp] theorem raise_lcGainUsed (e : ErrorCause) (s : State) : (s.raise e).lcGainUsed = s.lcGainUsed := rfl
@[simp] theorem raise_lcValid (e : ErrorCause) (s : State) : (s.raise e).lcValid = s.lcValid := rfl
@[simp] theorem raise_lcStatus (e : ErrorCause) (s : State) : (s.raise e).lcStatus = s.lcStatus := rfl
@[simp] theorem raise_lcState (e : ErrorCause) (s : State) : (s.raise e).lcState = s.lcState := rfl
@[simp] theorem raise_lcShreg (e : ErrorCause) (s : State) : (s.raise e).lcShreg = s.lcShreg := rfl
@[simp] theorem raise_lcBitcnt (e : ErrorCause) (s : State) : (s.raise e).lcBitcnt = s.lcBitcnt := rfl
@[simp] theorem raise_lcGain (e : ErrorCause) (s : State) : (s.raise e).lcGain = s.lcGain := rfl
@[simp] theorem raise_lcWait (e : ErrorCause) (s : State) : (s.raise e).lcWait = s.lcWait := rfl
@[simp] theorem raise_lcSck (e : ErrorCause) (s : State) : (s.raise e).lcSck = s.lcSck := rfl
@[simp] theorem raise_htFrame (e : ErrorCause) (s : State) : (s.raise e).htFrame = s.htFrame := rfl
@[simp] theorem raise_htStatus (e : ErrorCause) (s : State) : (s.raise e).htStatus = s.htStatus := rfl
@[simp] theorem raise_htState (e : ErrorCause) (s : State) : (s.raise e).htState = s.htState := rfl
@[simp] theorem raise_htShreg (e : ErrorCause) (s : State) : (s.raise e).htShreg = s.htShreg := rfl
@[simp] theorem raise_htBitidx (e : ErrorCause) (s : State) : (s.raise e).htBitidx = s.htBitidx := rfl
@[simp] theorem raise_htTo (e : ErrorCause) (s : State) : (s.raise e).htTo = s.htTo := rfl
@[simp] theorem raise_htDir (e : ErrorCause) (s : State) : (s.raise e).htDir = s.htDir := rfl
@[simp] theorem raise_htOut (e : ErrorCause) (s : State) : (s.raise e).htOut = s.htOut := rfl
@[simp] theorem raise_wakeArmed (e : ErrorCause) (s : State) : (s.raise e).wakeArmed = s.wakeArmed := rfl
@[simp] theorem raise_wakeFired (e : ErrorCause) (s : State) : (s.raise e).wakeFired = s.wakeFired := rfl
@[simp] theorem raise_htNew (e : ErrorCause) (s : State) : (s.raise e).htNew = s.htNew := rfl
@[simp] theorem raise_htFail (e : ErrorCause) (s : State) : (s.raise e).htFail = s.htFail := rfl
@[simp] theorem raise_thState (e : ErrorCause) (s : State) : (s.raise e).thState = s.thState := rfl
@[simp] theorem raise_restCnt (e : ErrorCause) (s : State) : (s.raise e).restCnt = s.restCnt := rfl
@[simp] theorem raise_cadCnt (e : ErrorCause) (s : State) : (s.raise e).cadCnt = s.cadCnt := rfl
@[simp] theorem raise_sampleNow (e : ErrorCause) (s : State) : (s.raise e).sampleNow = s.sampleNow := rfl
@[simp] theorem raise_pollPhase (e : ErrorCause) (s : State) : (s.raise e).pollPhase = s.pollPhase := rfl
@[simp] theorem raise_suspended (e : ErrorCause) (s : State) : (s.raise e).suspended = s.suspended := rfl
@[simp] theorem raise_txIdx (e : ErrorCause) (s : State) : (s.raise e).txIdx = s.txIdx := rfl
@[simp] theorem raise_txBusy (e : ErrorCause) (s : State) : (s.raise e).txBusy = s.txBusy := rfl
@[simp] theorem raise_rxIdx (e : ErrorCause) (s : State) : (s.raise e).rxIdx = s.rxIdx := rfl
@[simp] theorem raise_rxEof (e : ErrorCause) (s : State) : (s.raise e).rxEof = s.rxEof := rfl
@[simp] theorem raise_actClass (e : ErrorCause) (s : State) : (s.raise e).actClass = s.actClass := rfl
@[simp] theorem raise_actLetter (e : ErrorCause) (s : State) : (s.raise e).actLetter = s.actLetter := rfl
@[simp] theorem raise_actPct (e : ErrorCause) (s : State) : (s.raise e).actPct = s.actPct := rfl
@[simp] theorem raise_actPctOk (e : ErrorCause) (s : State) : (s.raise e).actPctOk = s.actPctOk := rfl
@[simp] theorem raise_opResp (e : ErrorCause) (s : State) : (s.raise e).opResp = s.opResp := rfl
@[simp] theorem raise_errSticky (e : ErrorCause) (s : State) : (s.raise e).errSticky = s.errSticky ||| errBit e := rfl
@[simp] theorem raise_rxBuf (e : ErrorCause) (s : State) : (s.raise e).rxBuf = s.rxBuf := rfl
@[simp] theorem raise_cmdHold (e : ErrorCause) (s : State) : (s.raise e).cmdHold = s.cmdHold := rfl
@[simp] theorem raise_txBuf (e : ErrorCause) (s : State) : (s.raise e).txBuf = s.txBuf := rfl
@[simp] theorem raise_cfg (e : ErrorCause) (s : State) : (s.raise e).cfg = s.cfg := rfl
@[simp] theorem raise_inbox (e : ErrorCause) (s : State) : (s.raise e).inbox = s.inbox := rfl
@[simp] theorem raise_held (e : ErrorCause) (s : State) : (s.raise e).held = s.held := rfl
@[simp] theorem raise_out (e : ErrorCause) (s : State) : (s.raise e).out = s.out := rfl
@[simp] theorem raise_fresh (e : ErrorCause) (s : State) : (s.raise e).fresh = s.fresh := rfl

/-! ## State.refuse -/

@[simp] theorem refuse_lcRaw (r : OpResp) (e : ErrorCause) (s : State) : (s.refuse r e).lcRaw = s.lcRaw := rfl
@[simp] theorem refuse_lcNeg (r : OpResp) (e : ErrorCause) (s : State) : (s.refuse r e).lcNeg = s.lcNeg := rfl
@[simp] theorem refuse_lcMag (r : OpResp) (e : ErrorCause) (s : State) : (s.refuse r e).lcMag = s.lcMag := rfl
@[simp] theorem refuse_lcGainUsed (r : OpResp) (e : ErrorCause) (s : State) : (s.refuse r e).lcGainUsed = s.lcGainUsed := rfl
@[simp] theorem refuse_lcValid (r : OpResp) (e : ErrorCause) (s : State) : (s.refuse r e).lcValid = s.lcValid := rfl
@[simp] theorem refuse_lcStatus (r : OpResp) (e : ErrorCause) (s : State) : (s.refuse r e).lcStatus = s.lcStatus := rfl
@[simp] theorem refuse_lcState (r : OpResp) (e : ErrorCause) (s : State) : (s.refuse r e).lcState = s.lcState := rfl
@[simp] theorem refuse_lcShreg (r : OpResp) (e : ErrorCause) (s : State) : (s.refuse r e).lcShreg = s.lcShreg := rfl
@[simp] theorem refuse_lcBitcnt (r : OpResp) (e : ErrorCause) (s : State) : (s.refuse r e).lcBitcnt = s.lcBitcnt := rfl
@[simp] theorem refuse_lcGain (r : OpResp) (e : ErrorCause) (s : State) : (s.refuse r e).lcGain = s.lcGain := rfl
@[simp] theorem refuse_lcWait (r : OpResp) (e : ErrorCause) (s : State) : (s.refuse r e).lcWait = s.lcWait := rfl
@[simp] theorem refuse_lcSck (r : OpResp) (e : ErrorCause) (s : State) : (s.refuse r e).lcSck = s.lcSck := rfl
@[simp] theorem refuse_htFrame (r : OpResp) (e : ErrorCause) (s : State) : (s.refuse r e).htFrame = s.htFrame := rfl
@[simp] theorem refuse_htStatus (r : OpResp) (e : ErrorCause) (s : State) : (s.refuse r e).htStatus = s.htStatus := rfl
@[simp] theorem refuse_htState (r : OpResp) (e : ErrorCause) (s : State) : (s.refuse r e).htState = s.htState := rfl
@[simp] theorem refuse_htShreg (r : OpResp) (e : ErrorCause) (s : State) : (s.refuse r e).htShreg = s.htShreg := rfl
@[simp] theorem refuse_htBitidx (r : OpResp) (e : ErrorCause) (s : State) : (s.refuse r e).htBitidx = s.htBitidx := rfl
@[simp] theorem refuse_htTo (r : OpResp) (e : ErrorCause) (s : State) : (s.refuse r e).htTo = s.htTo := rfl
@[simp] theorem refuse_htDir (r : OpResp) (e : ErrorCause) (s : State) : (s.refuse r e).htDir = s.htDir := rfl
@[simp] theorem refuse_htOut (r : OpResp) (e : ErrorCause) (s : State) : (s.refuse r e).htOut = s.htOut := rfl
@[simp] theorem refuse_wakeArmed (r : OpResp) (e : ErrorCause) (s : State) : (s.refuse r e).wakeArmed = s.wakeArmed := rfl
@[simp] theorem refuse_wakeFired (r : OpResp) (e : ErrorCause) (s : State) : (s.refuse r e).wakeFired = s.wakeFired := rfl
@[simp] theorem refuse_htNew (r : OpResp) (e : ErrorCause) (s : State) : (s.refuse r e).htNew = s.htNew := rfl
@[simp] theorem refuse_htFail (r : OpResp) (e : ErrorCause) (s : State) : (s.refuse r e).htFail = s.htFail := rfl
@[simp] theorem refuse_thState (r : OpResp) (e : ErrorCause) (s : State) : (s.refuse r e).thState = s.thState := rfl
@[simp] theorem refuse_restCnt (r : OpResp) (e : ErrorCause) (s : State) : (s.refuse r e).restCnt = s.restCnt := rfl
@[simp] theorem refuse_cadCnt (r : OpResp) (e : ErrorCause) (s : State) : (s.refuse r e).cadCnt = s.cadCnt := rfl
@[simp] theorem refuse_sampleNow (r : OpResp) (e : ErrorCause) (s : State) : (s.refuse r e).sampleNow = s.sampleNow := rfl
@[simp] theorem refuse_pollPhase (r : OpResp) (e : ErrorCause) (s : State) : (s.refuse r e).pollPhase = s.pollPhase := rfl
@[simp] theorem refuse_suspended (r : OpResp) (e : ErrorCause) (s : State) : (s.refuse r e).suspended = s.suspended := rfl
@[simp] theorem refuse_txIdx (r : OpResp) (e : ErrorCause) (s : State) : (s.refuse r e).txIdx = s.txIdx := rfl
@[simp] theorem refuse_txBusy (r : OpResp) (e : ErrorCause) (s : State) : (s.refuse r e).txBusy = s.txBusy := rfl
@[simp] theorem refuse_rxIdx (r : OpResp) (e : ErrorCause) (s : State) : (s.refuse r e).rxIdx = s.rxIdx := rfl
@[simp] theorem refuse_rxEof (r : OpResp) (e : ErrorCause) (s : State) : (s.refuse r e).rxEof = s.rxEof := rfl
@[simp] theorem refuse_actClass (r : OpResp) (e : ErrorCause) (s : State) : (s.refuse r e).actClass = s.actClass := rfl
@[simp] theorem refuse_actLetter (r : OpResp) (e : ErrorCause) (s : State) : (s.refuse r e).actLetter = s.actLetter := rfl
@[simp] theorem refuse_actPct (r : OpResp) (e : ErrorCause) (s : State) : (s.refuse r e).actPct = s.actPct := rfl
@[simp] theorem refuse_actPctOk (r : OpResp) (e : ErrorCause) (s : State) : (s.refuse r e).actPctOk = s.actPctOk := rfl
@[simp] theorem refuse_opResp (r : OpResp) (e : ErrorCause) (s : State) : (s.refuse r e).opResp = r := rfl
@[simp] theorem refuse_errSticky (r : OpResp) (e : ErrorCause) (s : State) : (s.refuse r e).errSticky = s.errSticky ||| errBit e := rfl
@[simp] theorem refuse_rxBuf (r : OpResp) (e : ErrorCause) (s : State) : (s.refuse r e).rxBuf = s.rxBuf := rfl
@[simp] theorem refuse_cmdHold (r : OpResp) (e : ErrorCause) (s : State) : (s.refuse r e).cmdHold = s.cmdHold := rfl
@[simp] theorem refuse_txBuf (r : OpResp) (e : ErrorCause) (s : State) : (s.refuse r e).txBuf = s.txBuf := rfl
@[simp] theorem refuse_cfg (r : OpResp) (e : ErrorCause) (s : State) : (s.refuse r e).cfg = s.cfg := rfl
@[simp] theorem refuse_inbox (r : OpResp) (e : ErrorCause) (s : State) : (s.refuse r e).inbox = s.inbox := rfl
@[simp] theorem refuse_held (r : OpResp) (e : ErrorCause) (s : State) : (s.refuse r e).held = s.held := rfl
@[simp] theorem refuse_out (r : OpResp) (e : ErrorCause) (s : State) : (s.refuse r e).out = s.out := rfl
@[simp] theorem refuse_fresh (r : OpResp) (e : ErrorCause) (s : State) : (s.refuse r e).fresh = s.fresh := rfl

/-! ## State.hold -/

@[simp] theorem hold_lcRaw (w : OpWord) (s : State) : (s.hold w).lcRaw = s.lcRaw := rfl
@[simp] theorem hold_lcNeg (w : OpWord) (s : State) : (s.hold w).lcNeg = s.lcNeg := rfl
@[simp] theorem hold_lcMag (w : OpWord) (s : State) : (s.hold w).lcMag = s.lcMag := rfl
@[simp] theorem hold_lcGainUsed (w : OpWord) (s : State) : (s.hold w).lcGainUsed = s.lcGainUsed := rfl
@[simp] theorem hold_lcValid (w : OpWord) (s : State) : (s.hold w).lcValid = s.lcValid := rfl
@[simp] theorem hold_lcStatus (w : OpWord) (s : State) : (s.hold w).lcStatus = s.lcStatus := rfl
@[simp] theorem hold_lcState (w : OpWord) (s : State) : (s.hold w).lcState = s.lcState := rfl
@[simp] theorem hold_lcShreg (w : OpWord) (s : State) : (s.hold w).lcShreg = s.lcShreg := rfl
@[simp] theorem hold_lcBitcnt (w : OpWord) (s : State) : (s.hold w).lcBitcnt = s.lcBitcnt := rfl
@[simp] theorem hold_lcGain (w : OpWord) (s : State) : (s.hold w).lcGain = s.lcGain := rfl
@[simp] theorem hold_lcWait (w : OpWord) (s : State) : (s.hold w).lcWait = s.lcWait := rfl
@[simp] theorem hold_lcSck (w : OpWord) (s : State) : (s.hold w).lcSck = s.lcSck := rfl
@[simp] theorem hold_htFrame (w : OpWord) (s : State) : (s.hold w).htFrame = s.htFrame := rfl
@[simp] theorem hold_htStatus (w : OpWord) (s : State) : (s.hold w).htStatus = s.htStatus := rfl
@[simp] theorem hold_htState (w : OpWord) (s : State) : (s.hold w).htState = s.htState := rfl
@[simp] theorem hold_htShreg (w : OpWord) (s : State) : (s.hold w).htShreg = s.htShreg := rfl
@[simp] theorem hold_htBitidx (w : OpWord) (s : State) : (s.hold w).htBitidx = s.htBitidx := rfl
@[simp] theorem hold_htTo (w : OpWord) (s : State) : (s.hold w).htTo = s.htTo := rfl
@[simp] theorem hold_htDir (w : OpWord) (s : State) : (s.hold w).htDir = s.htDir := rfl
@[simp] theorem hold_htOut (w : OpWord) (s : State) : (s.hold w).htOut = s.htOut := rfl
@[simp] theorem hold_wakeArmed (w : OpWord) (s : State) : (s.hold w).wakeArmed = s.wakeArmed := rfl
@[simp] theorem hold_wakeFired (w : OpWord) (s : State) : (s.hold w).wakeFired = s.wakeFired := rfl
@[simp] theorem hold_htNew (w : OpWord) (s : State) : (s.hold w).htNew = s.htNew := rfl
@[simp] theorem hold_htFail (w : OpWord) (s : State) : (s.hold w).htFail = s.htFail := rfl
@[simp] theorem hold_thState (w : OpWord) (s : State) : (s.hold w).thState = s.thState := rfl
@[simp] theorem hold_restCnt (w : OpWord) (s : State) : (s.hold w).restCnt = s.restCnt := rfl
@[simp] theorem hold_cadCnt (w : OpWord) (s : State) : (s.hold w).cadCnt = s.cadCnt := rfl
@[simp] theorem hold_sampleNow (w : OpWord) (s : State) : (s.hold w).sampleNow = s.sampleNow := rfl
@[simp] theorem hold_pollPhase (w : OpWord) (s : State) : (s.hold w).pollPhase = s.pollPhase := rfl
@[simp] theorem hold_suspended (w : OpWord) (s : State) : (s.hold w).suspended = s.suspended := rfl
@[simp] theorem hold_txIdx (w : OpWord) (s : State) : (s.hold w).txIdx = s.txIdx := rfl
@[simp] theorem hold_txBusy (w : OpWord) (s : State) : (s.hold w).txBusy = s.txBusy := rfl
@[simp] theorem hold_rxIdx (w : OpWord) (s : State) : (s.hold w).rxIdx = s.rxIdx := rfl
@[simp] theorem hold_rxEof (w : OpWord) (s : State) : (s.hold w).rxEof = s.rxEof := rfl
@[simp] theorem hold_actClass (w : OpWord) (s : State) : (s.hold w).actClass = s.actClass := rfl
@[simp] theorem hold_actLetter (w : OpWord) (s : State) : (s.hold w).actLetter = s.actLetter := rfl
@[simp] theorem hold_actPct (w : OpWord) (s : State) : (s.hold w).actPct = s.actPct := rfl
@[simp] theorem hold_actPctOk (w : OpWord) (s : State) : (s.hold w).actPctOk = s.actPctOk := rfl
@[simp] theorem hold_opResp (w : OpWord) (s : State) : (s.hold w).opResp = s.opResp := rfl
@[simp] theorem hold_errSticky (w : OpWord) (s : State) : (s.hold w).errSticky = s.errSticky := rfl
@[simp] theorem hold_rxBuf (w : OpWord) (s : State) : (s.hold w).rxBuf = s.rxBuf := rfl
@[simp] theorem hold_cmdHold (w : OpWord) (s : State) : (s.hold w).cmdHold = s.cmdHold := rfl
@[simp] theorem hold_txBuf (w : OpWord) (s : State) : (s.hold w).txBuf = s.txBuf := rfl
@[simp] theorem hold_cfg (w : OpWord) (s : State) : (s.hold w).cfg = s.cfg := rfl
@[simp] theorem hold_inbox (w : OpWord) (s : State) : (s.hold w).inbox = s.inbox := rfl
@[simp] theorem hold_held (w : OpWord) (s : State) : (s.hold w).held = s.held ++ [w] := rfl
@[simp] theorem hold_out (w : OpWord) (s : State) : (s.hold w).out = s.out := rfl
@[simp] theorem hold_fresh (w : OpWord) (s : State) : (s.hold w).fresh = s.fresh := rfl

/-! ## State.useFresh -/

@[simp] theorem useFresh_lcRaw (n : Nat) (s : State) : (s.useFresh n).lcRaw = s.lcRaw := rfl
@[simp] theorem useFresh_lcNeg (n : Nat) (s : State) : (s.useFresh n).lcNeg = s.lcNeg := rfl
@[simp] theorem useFresh_lcMag (n : Nat) (s : State) : (s.useFresh n).lcMag = s.lcMag := rfl
@[simp] theorem useFresh_lcGainUsed (n : Nat) (s : State) : (s.useFresh n).lcGainUsed = s.lcGainUsed := rfl
@[simp] theorem useFresh_lcValid (n : Nat) (s : State) : (s.useFresh n).lcValid = s.lcValid := rfl
@[simp] theorem useFresh_lcStatus (n : Nat) (s : State) : (s.useFresh n).lcStatus = s.lcStatus := rfl
@[simp] theorem useFresh_lcState (n : Nat) (s : State) : (s.useFresh n).lcState = s.lcState := rfl
@[simp] theorem useFresh_lcShreg (n : Nat) (s : State) : (s.useFresh n).lcShreg = s.lcShreg := rfl
@[simp] theorem useFresh_lcBitcnt (n : Nat) (s : State) : (s.useFresh n).lcBitcnt = s.lcBitcnt := rfl
@[simp] theorem useFresh_lcGain (n : Nat) (s : State) : (s.useFresh n).lcGain = s.lcGain := rfl
@[simp] theorem useFresh_lcWait (n : Nat) (s : State) : (s.useFresh n).lcWait = s.lcWait := rfl
@[simp] theorem useFresh_lcSck (n : Nat) (s : State) : (s.useFresh n).lcSck = s.lcSck := rfl
@[simp] theorem useFresh_htFrame (n : Nat) (s : State) : (s.useFresh n).htFrame = s.htFrame := rfl
@[simp] theorem useFresh_htStatus (n : Nat) (s : State) : (s.useFresh n).htStatus = s.htStatus := rfl
@[simp] theorem useFresh_htState (n : Nat) (s : State) : (s.useFresh n).htState = s.htState := rfl
@[simp] theorem useFresh_htShreg (n : Nat) (s : State) : (s.useFresh n).htShreg = s.htShreg := rfl
@[simp] theorem useFresh_htBitidx (n : Nat) (s : State) : (s.useFresh n).htBitidx = s.htBitidx := rfl
@[simp] theorem useFresh_htTo (n : Nat) (s : State) : (s.useFresh n).htTo = s.htTo := rfl
@[simp] theorem useFresh_htDir (n : Nat) (s : State) : (s.useFresh n).htDir = s.htDir := rfl
@[simp] theorem useFresh_htOut (n : Nat) (s : State) : (s.useFresh n).htOut = s.htOut := rfl
@[simp] theorem useFresh_wakeArmed (n : Nat) (s : State) : (s.useFresh n).wakeArmed = s.wakeArmed := rfl
@[simp] theorem useFresh_wakeFired (n : Nat) (s : State) : (s.useFresh n).wakeFired = s.wakeFired := rfl
@[simp] theorem useFresh_htNew (n : Nat) (s : State) : (s.useFresh n).htNew = s.htNew := rfl
@[simp] theorem useFresh_htFail (n : Nat) (s : State) : (s.useFresh n).htFail = s.htFail := rfl
@[simp] theorem useFresh_thState (n : Nat) (s : State) : (s.useFresh n).thState = s.thState := rfl
@[simp] theorem useFresh_restCnt (n : Nat) (s : State) : (s.useFresh n).restCnt = s.restCnt := rfl
@[simp] theorem useFresh_cadCnt (n : Nat) (s : State) : (s.useFresh n).cadCnt = s.cadCnt := rfl
@[simp] theorem useFresh_sampleNow (n : Nat) (s : State) : (s.useFresh n).sampleNow = s.sampleNow := rfl
@[simp] theorem useFresh_pollPhase (n : Nat) (s : State) : (s.useFresh n).pollPhase = s.pollPhase := rfl
@[simp] theorem useFresh_suspended (n : Nat) (s : State) : (s.useFresh n).suspended = s.suspended := rfl
@[simp] theorem useFresh_txIdx (n : Nat) (s : State) : (s.useFresh n).txIdx = s.txIdx := rfl
@[simp] theorem useFresh_txBusy (n : Nat) (s : State) : (s.useFresh n).txBusy = s.txBusy := rfl
@[simp] theorem useFresh_rxIdx (n : Nat) (s : State) : (s.useFresh n).rxIdx = s.rxIdx := rfl
@[simp] theorem useFresh_rxEof (n : Nat) (s : State) : (s.useFresh n).rxEof = s.rxEof := rfl
@[simp] theorem useFresh_actClass (n : Nat) (s : State) : (s.useFresh n).actClass = s.actClass := rfl
@[simp] theorem useFresh_actLetter (n : Nat) (s : State) : (s.useFresh n).actLetter = s.actLetter := rfl
@[simp] theorem useFresh_actPct (n : Nat) (s : State) : (s.useFresh n).actPct = s.actPct := rfl
@[simp] theorem useFresh_actPctOk (n : Nat) (s : State) : (s.useFresh n).actPctOk = s.actPctOk := rfl
@[simp] theorem useFresh_opResp (n : Nat) (s : State) : (s.useFresh n).opResp = s.opResp := rfl
@[simp] theorem useFresh_errSticky (n : Nat) (s : State) : (s.useFresh n).errSticky = s.errSticky := rfl
@[simp] theorem useFresh_rxBuf (n : Nat) (s : State) : (s.useFresh n).rxBuf = s.rxBuf := rfl
@[simp] theorem useFresh_cmdHold (n : Nat) (s : State) : (s.useFresh n).cmdHold = s.cmdHold := rfl
@[simp] theorem useFresh_txBuf (n : Nat) (s : State) : (s.useFresh n).txBuf = s.txBuf := rfl
@[simp] theorem useFresh_cfg (n : Nat) (s : State) : (s.useFresh n).cfg = s.cfg := rfl
@[simp] theorem useFresh_inbox (n : Nat) (s : State) : (s.useFresh n).inbox = s.inbox := rfl
@[simp] theorem useFresh_held (n : Nat) (s : State) : (s.useFresh n).held = s.held := rfl
@[simp] theorem useFresh_out (n : Nat) (s : State) : (s.useFresh n).out = s.out := rfl
@[simp] theorem useFresh_fresh (n : Nat) (s : State) : (s.useFresh n).fresh = s.fresh + n := rfl

/-! ## toPhase -/

@[simp] theorem toPhase_lcRaw (p : PollPhase) (s : State) : (toPhase p s).lcRaw = s.lcRaw := rfl
@[simp] theorem toPhase_lcNeg (p : PollPhase) (s : State) : (toPhase p s).lcNeg = s.lcNeg := rfl
@[simp] theorem toPhase_lcMag (p : PollPhase) (s : State) : (toPhase p s).lcMag = s.lcMag := rfl
@[simp] theorem toPhase_lcGainUsed (p : PollPhase) (s : State) : (toPhase p s).lcGainUsed = s.lcGainUsed := rfl
@[simp] theorem toPhase_lcValid (p : PollPhase) (s : State) : (toPhase p s).lcValid = s.lcValid := rfl
@[simp] theorem toPhase_lcStatus (p : PollPhase) (s : State) : (toPhase p s).lcStatus = s.lcStatus := rfl
@[simp] theorem toPhase_lcState (p : PollPhase) (s : State) : (toPhase p s).lcState = s.lcState := rfl
@[simp] theorem toPhase_lcShreg (p : PollPhase) (s : State) : (toPhase p s).lcShreg = s.lcShreg := rfl
@[simp] theorem toPhase_lcBitcnt (p : PollPhase) (s : State) : (toPhase p s).lcBitcnt = s.lcBitcnt := rfl
@[simp] theorem toPhase_lcGain (p : PollPhase) (s : State) : (toPhase p s).lcGain = s.lcGain := rfl
@[simp] theorem toPhase_lcWait (p : PollPhase) (s : State) : (toPhase p s).lcWait = s.lcWait := rfl
@[simp] theorem toPhase_lcSck (p : PollPhase) (s : State) : (toPhase p s).lcSck = s.lcSck := rfl
@[simp] theorem toPhase_htFrame (p : PollPhase) (s : State) : (toPhase p s).htFrame = s.htFrame := rfl
@[simp] theorem toPhase_htStatus (p : PollPhase) (s : State) : (toPhase p s).htStatus = s.htStatus := rfl
@[simp] theorem toPhase_htState (p : PollPhase) (s : State) : (toPhase p s).htState = s.htState := rfl
@[simp] theorem toPhase_htShreg (p : PollPhase) (s : State) : (toPhase p s).htShreg = s.htShreg := rfl
@[simp] theorem toPhase_htBitidx (p : PollPhase) (s : State) : (toPhase p s).htBitidx = s.htBitidx := rfl
@[simp] theorem toPhase_htTo (p : PollPhase) (s : State) : (toPhase p s).htTo = s.htTo := rfl
@[simp] theorem toPhase_htDir (p : PollPhase) (s : State) : (toPhase p s).htDir = s.htDir := rfl
@[simp] theorem toPhase_htOut (p : PollPhase) (s : State) : (toPhase p s).htOut = s.htOut := rfl
@[simp] theorem toPhase_wakeArmed (p : PollPhase) (s : State) : (toPhase p s).wakeArmed = s.wakeArmed := rfl
@[simp] theorem toPhase_wakeFired (p : PollPhase) (s : State) : (toPhase p s).wakeFired = s.wakeFired := rfl
@[simp] theorem toPhase_htNew (p : PollPhase) (s : State) : (toPhase p s).htNew = s.htNew := rfl
@[simp] theorem toPhase_htFail (p : PollPhase) (s : State) : (toPhase p s).htFail = s.htFail := rfl
@[simp] theorem toPhase_thState (p : PollPhase) (s : State) : (toPhase p s).thState = s.thState := rfl
@[simp] theorem toPhase_restCnt (p : PollPhase) (s : State) : (toPhase p s).restCnt = s.restCnt := rfl
@[simp] theorem toPhase_cadCnt (p : PollPhase) (s : State) : (toPhase p s).cadCnt = s.cadCnt := rfl
@[simp] theorem toPhase_sampleNow (p : PollPhase) (s : State) : (toPhase p s).sampleNow = s.sampleNow := rfl
@[simp] theorem toPhase_pollPhase (p : PollPhase) (s : State) : (toPhase p s).pollPhase = p := rfl
@[simp] theorem toPhase_suspended (p : PollPhase) (s : State) : (toPhase p s).suspended = s.suspended := rfl
@[simp] theorem toPhase_txIdx (p : PollPhase) (s : State) : (toPhase p s).txIdx = s.txIdx := rfl
@[simp] theorem toPhase_txBusy (p : PollPhase) (s : State) : (toPhase p s).txBusy = s.txBusy := rfl
@[simp] theorem toPhase_rxIdx (p : PollPhase) (s : State) : (toPhase p s).rxIdx = s.rxIdx := rfl
@[simp] theorem toPhase_rxEof (p : PollPhase) (s : State) : (toPhase p s).rxEof = s.rxEof := rfl
@[simp] theorem toPhase_actClass (p : PollPhase) (s : State) : (toPhase p s).actClass = s.actClass := rfl
@[simp] theorem toPhase_actLetter (p : PollPhase) (s : State) : (toPhase p s).actLetter = s.actLetter := rfl
@[simp] theorem toPhase_actPct (p : PollPhase) (s : State) : (toPhase p s).actPct = s.actPct := rfl
@[simp] theorem toPhase_actPctOk (p : PollPhase) (s : State) : (toPhase p s).actPctOk = s.actPctOk := rfl
@[simp] theorem toPhase_opResp (p : PollPhase) (s : State) : (toPhase p s).opResp = s.opResp := rfl
@[simp] theorem toPhase_errSticky (p : PollPhase) (s : State) : (toPhase p s).errSticky = s.errSticky := rfl
@[simp] theorem toPhase_rxBuf (p : PollPhase) (s : State) : (toPhase p s).rxBuf = s.rxBuf := rfl
@[simp] theorem toPhase_cmdHold (p : PollPhase) (s : State) : (toPhase p s).cmdHold = s.cmdHold := rfl
@[simp] theorem toPhase_txBuf (p : PollPhase) (s : State) : (toPhase p s).txBuf = s.txBuf := rfl
@[simp] theorem toPhase_cfg (p : PollPhase) (s : State) : (toPhase p s).cfg = s.cfg := rfl
@[simp] theorem toPhase_inbox (p : PollPhase) (s : State) : (toPhase p s).inbox = s.inbox := rfl
@[simp] theorem toPhase_held (p : PollPhase) (s : State) : (toPhase p s).held = s.held := rfl
@[simp] theorem toPhase_out (p : PollPhase) (s : State) : (toPhase p s).out = s.out := rfl
@[simp] theorem toPhase_fresh (p : PollPhase) (s : State) : (toPhase p s).fresh = s.fresh := rfl

/-! ## lcPulse -/

@[simp] theorem lcPulse_lcRaw (s : State) : (lcPulse s).lcRaw = s.lcRaw := rfl
@[simp] theorem lcPulse_lcNeg (s : State) : (lcPulse s).lcNeg = s.lcNeg := rfl
@[simp] theorem lcPulse_lcMag (s : State) : (lcPulse s).lcMag = s.lcMag := rfl
@[simp] theorem lcPulse_lcGainUsed (s : State) : (lcPulse s).lcGainUsed = s.lcGainUsed := rfl
@[simp] theorem lcPulse_lcValid (s : State) : (lcPulse s).lcValid = s.lcValid := rfl
@[simp] theorem lcPulse_lcStatus (s : State) : (lcPulse s).lcStatus = s.lcStatus := rfl
@[simp] theorem lcPulse_lcState (s : State) : (lcPulse s).lcState = s.lcState := rfl
@[simp] theorem lcPulse_lcShreg (s : State) : (lcPulse s).lcShreg = s.lcShreg := rfl
@[simp] theorem lcPulse_lcBitcnt (s : State) : (lcPulse s).lcBitcnt = s.lcBitcnt + 1 := rfl
@[simp] theorem lcPulse_lcGain (s : State) : (lcPulse s).lcGain = s.lcGain := rfl
@[simp] theorem lcPulse_lcWait (s : State) : (lcPulse s).lcWait = s.lcWait := rfl
@[simp] theorem lcPulse_lcSck (s : State) : (lcPulse s).lcSck = 0 := rfl
@[simp] theorem lcPulse_htFrame (s : State) : (lcPulse s).htFrame = s.htFrame := rfl
@[simp] theorem lcPulse_htStatus (s : State) : (lcPulse s).htStatus = s.htStatus := rfl
@[simp] theorem lcPulse_htState (s : State) : (lcPulse s).htState = s.htState := rfl
@[simp] theorem lcPulse_htShreg (s : State) : (lcPulse s).htShreg = s.htShreg := rfl
@[simp] theorem lcPulse_htBitidx (s : State) : (lcPulse s).htBitidx = s.htBitidx := rfl
@[simp] theorem lcPulse_htTo (s : State) : (lcPulse s).htTo = s.htTo := rfl
@[simp] theorem lcPulse_htDir (s : State) : (lcPulse s).htDir = s.htDir := rfl
@[simp] theorem lcPulse_htOut (s : State) : (lcPulse s).htOut = s.htOut := rfl
@[simp] theorem lcPulse_wakeArmed (s : State) : (lcPulse s).wakeArmed = s.wakeArmed := rfl
@[simp] theorem lcPulse_wakeFired (s : State) : (lcPulse s).wakeFired = s.wakeFired := rfl
@[simp] theorem lcPulse_htNew (s : State) : (lcPulse s).htNew = s.htNew := rfl
@[simp] theorem lcPulse_htFail (s : State) : (lcPulse s).htFail = s.htFail := rfl
@[simp] theorem lcPulse_thState (s : State) : (lcPulse s).thState = s.thState := rfl
@[simp] theorem lcPulse_restCnt (s : State) : (lcPulse s).restCnt = s.restCnt := rfl
@[simp] theorem lcPulse_cadCnt (s : State) : (lcPulse s).cadCnt = s.cadCnt := rfl
@[simp] theorem lcPulse_sampleNow (s : State) : (lcPulse s).sampleNow = s.sampleNow := rfl
@[simp] theorem lcPulse_pollPhase (s : State) : (lcPulse s).pollPhase = s.pollPhase := rfl
@[simp] theorem lcPulse_suspended (s : State) : (lcPulse s).suspended = s.suspended := rfl
@[simp] theorem lcPulse_txIdx (s : State) : (lcPulse s).txIdx = s.txIdx := rfl
@[simp] theorem lcPulse_txBusy (s : State) : (lcPulse s).txBusy = s.txBusy := rfl
@[simp] theorem lcPulse_rxIdx (s : State) : (lcPulse s).rxIdx = s.rxIdx := rfl
@[simp] theorem lcPulse_rxEof (s : State) : (lcPulse s).rxEof = s.rxEof := rfl
@[simp] theorem lcPulse_actClass (s : State) : (lcPulse s).actClass = s.actClass := rfl
@[simp] theorem lcPulse_actLetter (s : State) : (lcPulse s).actLetter = s.actLetter := rfl
@[simp] theorem lcPulse_actPct (s : State) : (lcPulse s).actPct = s.actPct := rfl
@[simp] theorem lcPulse_actPctOk (s : State) : (lcPulse s).actPctOk = s.actPctOk := rfl
@[simp] theorem lcPulse_opResp (s : State) : (lcPulse s).opResp = s.opResp := rfl
@[simp] theorem lcPulse_errSticky (s : State) : (lcPulse s).errSticky = s.errSticky := rfl
@[simp] theorem lcPulse_rxBuf (s : State) : (lcPulse s).rxBuf = s.rxBuf := rfl
@[simp] theorem lcPulse_cmdHold (s : State) : (lcPulse s).cmdHold = s.cmdHold := rfl
@[simp] theorem lcPulse_txBuf (s : State) : (lcPulse s).txBuf = s.txBuf := rfl
@[simp] theorem lcPulse_cfg (s : State) : (lcPulse s).cfg = s.cfg := rfl
@[simp] theorem lcPulse_inbox (s : State) : (lcPulse s).inbox = s.inbox := rfl
@[simp] theorem lcPulse_held (s : State) : (lcPulse s).held = s.held := rfl
@[simp] theorem lcPulse_out (s : State) : (lcPulse s).out = s.out ++ [.lcPulse (s.lcBitcnt.toNat + 1)] := rfl
@[simp] theorem lcPulse_fresh (s : State) : (lcPulse s).fresh = s.fresh := rfl

/-! ## htIdleLine -/

@[simp] theorem htIdleLine_lcRaw (s : State) : (htIdleLine s).lcRaw = s.lcRaw := rfl
@[simp] theorem htIdleLine_lcNeg (s : State) : (htIdleLine s).lcNeg = s.lcNeg := rfl
@[simp] theorem htIdleLine_lcMag (s : State) : (htIdleLine s).lcMag = s.lcMag := rfl
@[simp] theorem htIdleLine_lcGainUsed (s : State) : (htIdleLine s).lcGainUsed = s.lcGainUsed := rfl
@[simp] theorem htIdleLine_lcValid (s : State) : (htIdleLine s).lcValid = s.lcValid := rfl
@[simp] theorem htIdleLine_lcStatus (s : State) : (htIdleLine s).lcStatus = s.lcStatus := rfl
@[simp] theorem htIdleLine_lcState (s : State) : (htIdleLine s).lcState = s.lcState := rfl
@[simp] theorem htIdleLine_lcShreg (s : State) : (htIdleLine s).lcShreg = s.lcShreg := rfl
@[simp] theorem htIdleLine_lcBitcnt (s : State) : (htIdleLine s).lcBitcnt = s.lcBitcnt := rfl
@[simp] theorem htIdleLine_lcGain (s : State) : (htIdleLine s).lcGain = s.lcGain := rfl
@[simp] theorem htIdleLine_lcWait (s : State) : (htIdleLine s).lcWait = s.lcWait := rfl
@[simp] theorem htIdleLine_lcSck (s : State) : (htIdleLine s).lcSck = s.lcSck := rfl
@[simp] theorem htIdleLine_htFrame (s : State) : (htIdleLine s).htFrame = s.htFrame := rfl
@[simp] theorem htIdleLine_htStatus (s : State) : (htIdleLine s).htStatus = s.htStatus := rfl
@[simp] theorem htIdleLine_htState (s : State) : (htIdleLine s).htState = .idle := rfl
@[simp] theorem htIdleLine_htShreg (s : State) : (htIdleLine s).htShreg = s.htShreg := rfl
@[simp] theorem htIdleLine_htBitidx (s : State) : (htIdleLine s).htBitidx = s.htBitidx := rfl
@[simp] theorem htIdleLine_htTo (s : State) : (htIdleLine s).htTo = s.htTo := rfl
@[simp] theorem htIdleLine_htDir (s : State) : (htIdleLine s).htDir = 1 := rfl
@[simp] theorem htIdleLine_htOut (s : State) : (htIdleLine s).htOut = 1 := rfl
@[simp] theorem htIdleLine_wakeArmed (s : State) : (htIdleLine s).wakeArmed = s.wakeArmed := rfl
@[simp] theorem htIdleLine_wakeFired (s : State) : (htIdleLine s).wakeFired = s.wakeFired := rfl
@[simp] theorem htIdleLine_htNew (s : State) : (htIdleLine s).htNew = s.htNew := rfl
@[simp] theorem htIdleLine_htFail (s : State) : (htIdleLine s).htFail = s.htFail := rfl
@[simp] theorem htIdleLine_thState (s : State) : (htIdleLine s).thState = s.thState := rfl
@[simp] theorem htIdleLine_restCnt (s : State) : (htIdleLine s).restCnt = s.restCnt := rfl
@[simp] theorem htIdleLine_cadCnt (s : State) : (htIdleLine s).cadCnt = s.cadCnt := rfl
@[simp] theorem htIdleLine_sampleNow (s : State) : (htIdleLine s).sampleNow = s.sampleNow := rfl
@[simp] theorem htIdleLine_pollPhase (s : State) : (htIdleLine s).pollPhase = s.pollPhase := rfl
@[simp] theorem htIdleLine_suspended (s : State) : (htIdleLine s).suspended = s.suspended := rfl
@[simp] theorem htIdleLine_txIdx (s : State) : (htIdleLine s).txIdx = s.txIdx := rfl
@[simp] theorem htIdleLine_txBusy (s : State) : (htIdleLine s).txBusy = s.txBusy := rfl
@[simp] theorem htIdleLine_rxIdx (s : State) : (htIdleLine s).rxIdx = s.rxIdx := rfl
@[simp] theorem htIdleLine_rxEof (s : State) : (htIdleLine s).rxEof = s.rxEof := rfl
@[simp] theorem htIdleLine_actClass (s : State) : (htIdleLine s).actClass = s.actClass := rfl
@[simp] theorem htIdleLine_actLetter (s : State) : (htIdleLine s).actLetter = s.actLetter := rfl
@[simp] theorem htIdleLine_actPct (s : State) : (htIdleLine s).actPct = s.actPct := rfl
@[simp] theorem htIdleLine_actPctOk (s : State) : (htIdleLine s).actPctOk = s.actPctOk := rfl
@[simp] theorem htIdleLine_opResp (s : State) : (htIdleLine s).opResp = s.opResp := rfl
@[simp] theorem htIdleLine_errSticky (s : State) : (htIdleLine s).errSticky = s.errSticky := rfl
@[simp] theorem htIdleLine_rxBuf (s : State) : (htIdleLine s).rxBuf = s.rxBuf := rfl
@[simp] theorem htIdleLine_cmdHold (s : State) : (htIdleLine s).cmdHold = s.cmdHold := rfl
@[simp] theorem htIdleLine_txBuf (s : State) : (htIdleLine s).txBuf = s.txBuf := rfl
@[simp] theorem htIdleLine_cfg (s : State) : (htIdleLine s).cfg = s.cfg := rfl
@[simp] theorem htIdleLine_inbox (s : State) : (htIdleLine s).inbox = s.inbox := rfl
@[simp] theorem htIdleLine_held (s : State) : (htIdleLine s).held = s.held := rfl
@[simp] theorem htIdleLine_out (s : State) : (htIdleLine s).out = s.out := rfl
@[simp] theorem htIdleLine_fresh (s : State) : (htIdleLine s).fresh = s.fresh := rfl

end Sys2Proof.Machine
end

