-- ==== Sys2Proof/Laws/Ops.lean ====
section
/-! SUPPORT. One lemma per shared operation that says everything it can do (Machine/Ops.lean, Flags.lean,
Step.lean, and the effects the families share). -/

namespace Sys2Proof.Machine

/-! ## Counters -/

/-- The bits of a counter hold its limit (R21). -/
theorem lt_two_pow_counterBits (limit : Nat) : limit < 2 ^ counterBits limit := by
  unfold counterBits
  split
  · omega
  · exact Nat.lt_log2_self

/-- Below its limit a counter does not wrap. -/
theorem bump_of_lt {limit n : Nat} (h : n < limit) : bump limit n = n + 1 :=
  Nat.mod_eq_of_lt (Nat.lt_of_le_of_lt h (lt_two_pow_counterBits limit))

/-- One step before its limit a counter reaches it. -/
theorem bump_of_succ_eq {limit n : Nat} (h : n + 1 = limit) : bump limit n = limit := by
  rw [bump_of_lt (by omega), h]

/-! ## The control port -/

theorem atPort_of_free {w : OpWord} {take : State → Taken} {s : State} (h : mainBusy s = false) :
    atPort w take s = respond s (take s) := by
  simp [atPort, h]

theorem atPort_of_busy {w : OpWord} {take : State → Taken} {s : State} (h : mainBusy s = true) :
    atPort w take s = .next (s.hold w) := by
  simp [atPort, h]

/-- Everything a request can do when it answers a next state. -/
theorem atPort_next {w : OpWord} {take : State → Taken} {s t : State}
    (h : atPort w take s = .next t) :
    (mainBusy s = true ∧ t = s.hold w) ∨
    (mainBusy s = false ∧ ∃ u, take s = .accepted u ∧ t = { u with opResp := .accepted }) ∨
    (mainBusy s = false ∧ ∃ r e, take s = .declined r e ∧ t = s.refuse r e) := by
  unfold atPort at h
  split at h
  · exact .inl ⟨‹_›, by simpa using h.symm⟩
  · rename_i hb
    have hf : mainBusy s = false := by simpa using hb
    unfold respond at h
    split at h
    · exact .inr (.inl ⟨hf, _, ‹_›, by simpa using h.symm⟩)
    · exact .inr (.inr ⟨hf, _, _, ‹_›, by simpa using h.symm⟩)
    · cases h

/-- Everything an embedded operation can do when it answers a next state. -/
theorem embed_next {s t : State} {k : State → State} {r : Taken} (h : embed s k r = .next t) :
    (∃ u, r = .accepted u ∧ t = k u) ∨ (∃ c e, r = .declined c e ∧ t = k (s.raise e)) := by
  cases r with
  | accepted u => exact .inl ⟨u, rfl, by simpa [embed] using h.symm⟩
  | declined c e => exact .inr ⟨c, e, rfl, by simpa [embed] using h.symm⟩
  | stopped f => simp [embed] at h

/-! ## Fetching and stepping -/

/-- Everything a fetch can answer: a held word on a free port, or the next of the schedule. -/
theorem fetch_some {s t : State} {x : Stimulus} (h : fetch s = some (x, t)) :
    (∃ w ws, s.held = w :: ws ∧ mainBusy s = false ∧ x = .request w ∧ t = { s with held := ws }) ∨
    (∃ xs, s.inbox = x :: xs ∧ (s.held = [] ∨ mainBusy s = true) ∧ t = { s with inbox := xs }) := by
  have sched : nextScheduled s = some (x, t) → ∃ xs, s.inbox = x :: xs ∧ t = { s with inbox := xs } := by
    intro h
    unfold nextScheduled at h
    split at h
    · cases h
    · cases h; exact ⟨_, ‹_›, rfl⟩
  unfold fetch at h
  split at h
  · obtain ⟨xs, h1, h2⟩ := sched h
    exact .inr ⟨xs, h1, .inl ‹_›, h2⟩
  · split at h
    · obtain ⟨xs, h1, h2⟩ := sched h
      exact .inr ⟨xs, h1, .inr ‹_›, h2⟩
    · cases h
      exact .inl ⟨_, _, ‹_›, by simpa using ‹¬mainBusy s = true›, rfl, rfl⟩

/-- An operation word decodes or is reserved. -/
theorem decodeRequest_error {w : OpWord} {e : DecodeError} (h : decodeRequest w = .error e) :
    e = .reservedWord w := by
  unfold decodeRequest at h
  simp only at h
  repeat' (split at h)
  all_goals cases h
  all_goals rfl

/-- Everything a step can do when it answers a next state: stay idle, run the instruction of the next
stimulus, or take a reserved word. -/
theorem step_next {s t : State} (h : step s = .next t) :
    (fetch s = none ∧ t = s) ∨
    (∃ x u i, fetch s = some (x, u) ∧ decode (.stimulus x) = .ok i ∧ exec i u = .next t) ∨
    (∃ w u, fetch s = some (.request w, u) ∧ decode (.stimulus (.request w)) = .error (.reservedWord w) ∧
      reservedRequest w u = .next t) := by
  unfold step at h
  split at h
  · exact .inl ⟨‹_›, by simpa using h.symm⟩
  · rename_i x u hf
    cases x with
    | request w =>
      cases hd : decode (.stimulus (.request w)) with
      | ok i => rw [hd] at h; exact .inr (.inl ⟨_, u, i, hf, hd, h⟩)
      | error e =>
        have := decodeRequest_error (w := w) (e := e) hd
        subst this
        rw [hd] at h
        exact .inr (.inr ⟨w, u, hf, hd, h⟩)
    | strobe l => exact .inr (.inl ⟨_, u, _, hf, rfl, h⟩)
    | rxByte b => exact .inr (.inl ⟨_, u, _, hf, rfl, h⟩)
    | lcStep d => exact .inr (.inl ⟨_, u, _, hf, rfl, h⟩)
    | htStep l => exact .inr (.inl ⟨_, u, _, hf, rfl, h⟩)

/-! ## Effects the families share -/

/-- The completion hook changes th_state and rest_cnt only (R139). -/
theorem htHook_eq (s : State) : htHook s = { s with
    thState := if s.thState = .sampling then .waitingRest else s.thState
    restCnt := if s.thState = .sampling then 0 else s.restCnt } := by
  unfold htHook
  split <;> simp

/-- A dispatched command writes the four act registers and emits them (R206, R210). -/
theorem dispatchAct_eq (cls : ActClass) (letter : Byte) (pct : Option (BitVec 7)) (s : State) :
    dispatchAct cls letter pct s = { s with
      actClass := cls
      actLetter := letter
      actPct := (dispatchAct cls letter pct s).actPct
      actPctOk := pct.isSome
      fresh := (dispatchAct cls letter pct s).fresh
      out := s.out ++ [.actCmd cls letter (dispatchAct cls letter pct s).actPct pct.isSome] } := by
  cases pct <;> rfl

/-- With a percentage, act_pct is it and no free value is used (R209). -/
theorem dispatchAct_some (cls : ActClass) (letter : Byte) (p : BitVec 7) (s : State) :
    (dispatchAct cls letter (some p) s).actPct = p ∧
      (dispatchAct cls letter (some p) s).fresh = s.fresh := ⟨rfl, rfl⟩

/-- Every dispatch is one of the seven commands of R206, or MalformedCommand, which only raises its error. -/
theorem dispatch_eq (c d2 d1 d0 : Byte) (s : State) :
    (∃ cls letter pct, dispatch c d2 d1 d0 s =
      { dispatchAct cls letter pct s with suspended := s.suspended || decide (c = 0x51) } ∧
        (pct.isSome = true → cls = .setpoint)) ∨
    (inCmdSet c = false ∧ dispatch c d2 d1 d0 s = s.raise .malformedCommand) := by
  have hs : ∀ cls letter pct, (dispatchAct cls letter pct s).suspended = s.suspended := by
    intro cls letter pct; rw [dispatchAct_eq]
  have go : ∀ (cls : ActClass) (letter : Byte) (pct : Option (BitVec 7)), c ≠ 0x51 →
      dispatchAct cls letter pct s =
        { dispatchAct cls letter pct s with suspended := s.suspended || decide (c = 0x51) } := by
    intro cls letter pct hc
    have : (s.suspended || decide (c = 0x51)) = (dispatchAct cls letter pct s).suspended := by
      rw [hs, decide_eq_false hc, Bool.or_false]
    rw [this]
  unfold dispatch
  by_cases h : c = 0x51
  · exact .inl ⟨.halt, 0x51, none, by simp [h, cmdQEffect], by simp⟩
  rw [if_neg h]
  by_cases h1 : c = 0x53
  · exact .inl ⟨.stop, 0x53, none, by rw [if_pos h1]; exact go _ _ _ h, by simp⟩
  rw [if_neg h1]
  by_cases h2 : c = 0x46
  · exact .inl ⟨.setpoint, 0x46, _, by rw [if_pos h2]; exact go _ _ _ h, by simp⟩
  rw [if_neg h2]
  by_cases h3 : c = 0x52
  · exact .inl ⟨.setpoint, 0x52, _, by rw [if_pos h3]; exact go _ _ _ h, by simp⟩
  rw [if_neg h3]
  by_cases h4 : c = 0x47
  · exact .inl ⟨.setpoint, 0x47, _, by rw [if_pos h4]; exact go _ _ _ h, by simp⟩
  rw [if_neg h4]
  by_cases h5 : c = 0x4D
  · exact .inl ⟨.sprayOn, 0x4D, none, by rw [if_pos h5]; exact go _ _ _ h, by simp⟩
  rw [if_neg h5]
  by_cases h6 : c = 0x4E
  · exact .inl ⟨.sprayOff, 0x4E, none, by rw [if_pos h6]; exact go _ _ _ h, by simp⟩
  rw [if_neg h6]
  exact .inr ⟨by simp_all [inCmdSet], rfl⟩

/-- A whole frame is read exactly when its four bytes hold values (R60, R205). -/
theorem readFrame_ok {s : State} {c d2 d1 d0 : Byte} :
    readFrame s = .ok (c, d2, d1, d0) ↔
      s.rxBuf.read 0 = some c ∧ s.rxBuf.read 1 = some d2 ∧ s.rxBuf.read 2 = some d1 ∧
        s.rxBuf.read 3 = some d0 := by
  have h : ∀ i < 4, ∀ b, memRead .rxBuf i s = .ok b ↔ s.rxBuf.read i = some b := by
    intro i hi b
    rw [memRead_ok]
    simp [spaceSize, cmdLen, State.mem, hi]
  rw [← h 0 (by omega), ← h 1 (by omega), ← h 2 (by omega), ← h 3 (by omega)]
  unfold readFrame
  cases memRead .rxBuf 0 s <;> cases memRead .rxBuf 1 s <;> cases memRead .rxBuf 2 s <;>
    cases memRead .rxBuf 3 s <;> simp [bind, Except.bind, pure, Except.pure]

/-- What CMD.TAKE can do once taken (R205). -/
theorem cmdTakeTake_cases (s : State) :
    (s.rxEof = false ∧ cmdTakeTake s = .accepted s) ∨
    (s.rxEof = true ∧ ∃ c d2 d1 d0, readFrame s = .ok (c, d2, d1, d0) ∧
      cmdTakeTake s = .accepted (dispatch c d2 d1 d0 (cmdCopy c d2 d1 d0 s))) ∨
    (s.rxEof = true ∧ ∃ f, readFrame s = .error f ∧ cmdTakeTake s = .stopped f) := by
  unfold cmdTakeTake
  cases he : s.rxEof
  · exact .inl ⟨rfl, rfl⟩
  · cases hr : readFrame s with
    | error f => exact .inr (.inr ⟨rfl, f, rfl, rfl⟩)
    | ok p =>
      obtain ⟨c, d2, d1, d0⟩ := p
      exact .inr (.inl ⟨rfl, c, d2, d1, d0, rfl, rfl⟩)

/-- What HT.STEP can do in a reading state (R130, R134). -/
theorem execHtStep_next {l : Level} {s t : State} (h : execHtStep l s = .next t) :
    (s.htState.reading = false ∧ t = s) ∨ (s.htState = .bsmp ∧ t = htSample l s) ∨
    (∃ g, htTarget s.htState = some g ∧ ((l = g ∧ t = htWaitHit s) ∨ (l ≠ g ∧ t = htWaitMiss s))) := by
  unfold execHtStep at h
  split at h
  · rename_i g hg
    refine .inr (.inr ⟨g, hg, ?_⟩)
    split at h
    · exact .inl ⟨‹_›, by simpa using h.symm⟩
    · exact .inr ⟨‹_›, by simpa using h.symm⟩
  · rename_i hg
    split at h
    · exact .inr (.inl ⟨‹_›, by simpa using h.symm⟩)
    · refine .inl ⟨?_, by simpa [notEnabled] using h.symm⟩
      revert hg
      cases hs : s.htState <;> simp_all [htTarget, HtState.reading]

end Sys2Proof.Machine
end

