-- ==== Sys2Proof/Laws/Fmt.lean ====
section
/-! SUPPORT. The widths of the telemetry fields and what the formatter reads (Machine/Fmt.lean,
Operands.lean; spec/43_fmt.md R177 to R188). -/

namespace Sys2Proof.Machine

@[simp] theorem dec_length (w n : Nat) : (dec w n).length = w := by
  induction w with
  | zero => rfl
  | succ w ih => simp [dec, ih]

@[simp] theorem signAdjacent_length (bs : List Byte) : (signAdjacent bs).length = bs.length := by
  unfold signAdjacent
  dsimp only
  split <;> simp

@[simp] theorem placeholders_length (err : Bool) (w : Nat) : (placeholders err w).length = w := by
  unfold placeholders
  split <;> simp

/-- Each field has its width, in every case (R177). -/
theorem fieldBytes_length (s : State) (err : Bool) (f : Field) :
    (fieldBytes s err f).length = s.cfg.fieldWidth f := by
  cases f <;> simp only [fieldBytes, Config.fieldWidth]
  · unfold loadField
    split <;> simp
  · split <;> simp [humField]
  · split
    · unfold tempField
      dsimp only
      split
      · simp; omega
      · simp
    · simp
  · rfl
  · rfl

/-- A digit's character is one of `0` to `9` (R12, R188). -/
theorem asc_digit_range (n i : Nat) : 0x30 ≤ asc (digit n i) ∧ asc (digit n i) ≤ 0x39 := by
  have h : ∀ k < 10, (0x30 : Byte) ≤ asc k ∧ asc k ≤ 0x39 := by decide
  exact h _ (Nat.mod_lt _ (by omega))

/-- A chosen character is a character of a frame, whatever the number (R187). -/
theorem frameChar_mem (c : Config) (n : Nat) : frameChar c n ∈ frameChars c := by
  have h : n % (frameChars c).length < (frameChars c).length := Nat.mod_lt _ (by simp [frameChars])
  rw [frameChar, List.getD_eq_getElem _ _ h]
  exact List.getElem_mem h

/-- The characters of a frame, one by one (R187). -/
theorem mem_frameChars {c : Config} {b : Byte} (h : b ∈ frameChars c) :
    (0x30 ≤ b ∧ b ≤ 0x39) ∨ b = 0x2D ∨ b = c.tsignPos ∨ b = placeholder ∨ b = errMark ∨ b = c.sep ∨
      b = c.term0 ∨ b = c.term1 := by
  simp only [frameChars, List.mem_cons, List.not_mem_nil, or_false] at h
  rcases h with rfl | rfl | rfl | rfl | rfl | rfl | rfl | rfl | rfl | rfl | h
  all_goals first
    | exact .inl (by decide)
    | exact .inr h

/-- The formatter reads the sample, the humidity registers and the parameters, nothing else (R22). -/
theorem renderFields_congr {s t : State} (h1 : s.lcNeg = t.lcNeg) (h2 : s.lcMag = t.lcMag)
    (h3 : s.htNew = t.htNew) (h4 : s.htFrame = t.htFrame) (h5 : s.cfg = t.cfg) (fs : List Field) :
    ∀ err, renderFields s err fs = renderFields t err fs := by
  have field : ∀ err f, fieldBytes s err f = fieldBytes t err f := by
    intro err f
    cases f <;> simp only [fieldBytes, loadField, humField, tempField, h1, h2, h3, h4, h5]
  induction fs with
  | nil => intro err; rfl
  | cons f fs ih => intro err; rw [renderFields, renderFields, field, ih]

end Sys2Proof.Machine
end

