-- ==== Sys2Proof/Laws/PerInstr.lean ====
section
/-! SUPPORT. The statement made per instruction: the words the encoder writes have the fixed bits of the
instruction's row of spec/opcode_table.json, in the row's encoding space. -/

namespace Sys2Proof.Laws.EncodesInRow

/-- The words of an instruction fit its row of the opcode table (R82, R85, R90). -/
def Statement (i : Instr) : Prop := (rowOf i).fits (encode i) = true

/-- The words of a command frame fit the row of its command character. -/
theorem frame_fits (c d2 d1 d0 : Byte) (bits : Frame) (h : Frame.ofBytes c 0 0 0 = bits) :
    (Row.cmdf 0xFF000000 bits).fits (.frame (Frame.ofBytes c d2 d1 d0)) = true := by
  simp only [Row.fits, Frame.ofBytes_and_mask, h, decide_true]

theorem lcRead (g : BitVec 5) : Statement (.lcRead g) := by
  revert g; unfold Statement; decide
theorem htStart : Statement .htStart := by unfold Statement; decide
theorem htRead : Statement .htRead := by unfold Statement; decide
theorem fmtEnc : Statement .fmtEnc := by unfold Statement; decide
theorem cmdTake : Statement .cmdTake := by unfold Statement; decide
theorem seqStep : Statement .seqStep := by unfold Statement; decide
theorem poll : Statement .poll := by unfold Statement; decide
theorem tick : Statement .tick := rfl
theorem rxByte (b : Byte) : Statement (.rxByte b) := rfl
theorem txPop : Statement .txPop := rfl
theorem wakeFire : Statement .wakeFire := rfl
theorem htRelease : Statement .htRelease := rfl
theorem reset : Statement .reset := rfl
theorem lcStep (d : Level) : Statement (.lcStep d) := rfl
theorem htStep (l : Level) : Statement (.htStep l) := rfl
theorem pollStep : Statement .pollStep := rfl
theorem cmdQ (d2 d1 d0 : Byte) : Statement (.cmdQ d2 d1 d0) := frame_fits _ _ _ _ _ (by decide)
theorem cmdS (d2 d1 d0 : Byte) : Statement (.cmdS d2 d1 d0) := frame_fits _ _ _ _ _ (by decide)
theorem cmdF (d2 d1 d0 : Byte) : Statement (.cmdF d2 d1 d0) := frame_fits _ _ _ _ _ (by decide)
theorem cmdR (d2 d1 d0 : Byte) : Statement (.cmdR d2 d1 d0) := frame_fits _ _ _ _ _ (by decide)
theorem cmdG (d2 d1 d0 : Byte) : Statement (.cmdG d2 d1 d0) := frame_fits _ _ _ _ _ (by decide)
theorem cmdM (d2 d1 d0 : Byte) : Statement (.cmdM d2 d1 d0) := frame_fits _ _ _ _ _ (by decide)
theorem cmdN (d2 d1 d0 : Byte) : Statement (.cmdN d2 d1 d0) := frame_fits _ _ _ _ _ (by decide)

end Sys2Proof.Laws.EncodesInRow
end

