-- ==== Sys2Proof/Laws/Run.lean ====
section
/-! SUPPORT. Sequences of instructions (Safety.lean, `runAll`), what SEQ.STEP can do once taken, and the
memories of the reset state. -/

namespace Sys2Proof.Machine

/-- A sequence whose first instruction answers a next state goes on from it. -/
theorem runAll_cons {i : Instr} {is : List Instr} {s t : State} (h : exec i s = .next t) :
    runAll (i :: is) s = runAll is t := by
  simp only [runAll, h]

/-- A sequence after a sequence that answers a next state goes on from it. -/
theorem runAll_append (is js : List Instr) :
    ∀ s t, runAll is s = .next t → runAll (is ++ js) s = runAll js t := by
  induction is with
  | nil => intro s t h; cases h; rfl
  | cons i is ih =>
    intro s t h
    simp only [runAll, List.cons_append] at h ⊢
    split at h
    · exact ih _ t h
    · cases h
    · cases h

/-- Everything SEQ.STEP can do once taken, by th_state (R152 to R155). -/
theorem seqStepTake_cases (s : State) :
    (s.thState = .awaitingWake ∧ s.htState = .idle ∧
      seqStepTake s = .accepted { htStartEffect s with thState := .waitingWake }) ∨
    (s.thState = .awaitingWake ∧ s.htState ≠ .idle ∧
      seqStepTake s = .declined .refusedState .opRefused) ∨
    (s.thState = .waitingWake ∧ htReadReady s = true ∧
      seqStepTake s = .accepted { htReadEffect s with thState := .sampling }) ∨
    (s.thState = .waitingWake ∧ htReadReady s = false ∧ seqStepTake s = .accepted s) ∨
    (s.thState = .sampling ∧ seqStepTake s = .accepted s) ∨
    (s.thState = .waitingRest ∧ seqStepTake s = .accepted
      { s with
        restCnt := bump s.cfg.nRest s.restCnt
        thState := if s.restCnt + 1 = s.cfg.nRest then .awaitingWake else .waitingRest }) := by
  unfold seqStepTake
  cases hs : s.thState
  · by_cases h : s.htState = .idle
    · exact .inl ⟨rfl, h, by rw [htStartTake, if_pos h]; rfl⟩
    · exact .inr (.inl ⟨rfl, h, by rw [htStartTake, if_neg h]; rfl⟩)
  · exact .inr (.inr (.inr (.inr (.inl ⟨rfl, rfl⟩))))
  · by_cases h : htReadReady s = true
    · exact .inr (.inr (.inl ⟨rfl, h, by simp only [h, if_true]⟩))
    · exact .inr (.inr (.inr (.inl ⟨rfl, by simpa using h, by simp only [if_neg h]⟩)))
  · exact .inr (.inr (.inr (.inr (.inr ⟨rfl, rfl⟩))))

/-- The memories of the state after reset are in canonical form, whatever the parameters (R50, R52). -/
theorem resetWith_memories_wf (c : Config) :
    Memory.wf cmdLen (State.resetWith c).rxBuf = true ∧
      Memory.wf cmdLen (State.resetWith c).cmdHold = true ∧
      Memory.wf c.frameW (State.resetWith c).txBuf = true := ⟨rfl, rfl, rfl⟩

/-- The memories of `State.reset` are in canonical form. -/
theorem reset_memories_wf :
    Memory.wf cmdLen State.reset.rxBuf = true ∧ Memory.wf cmdLen State.reset.cmdHold = true ∧
      Memory.wf Config.default.frameW State.reset.txBuf = true := resetWith_memories_wf _

end Sys2Proof.Machine
end

