-- ==== Sys2Proof/Tests/Slice0.lean ====
section
/-! SUPPORT. Tests of the model and witnesses of the statements' hypotheses.
Expected values are those of spec/30_encoding.md and of the vectors of spec/95_test_vectors.md, whose names
(L8, H15, Q6, F1, C3, E1, P3, ...) stand in the comments. -/

namespace Sys2Proof.Tests

open Sys2Proof Sys2Proof.Machine

/-- The outcome is a next state with the property `p`. -/
def next (r : Result) (p : State → Bool) : Bool :=
  match r with
  | .next t => p t
  | .fault _ => false
  | .refused _ => false

/-- The state of R50 with the default parameters, the start of every vector. -/
def s0 : State := State.reset

/-- Main level occupied by a load-cell read that waits for data ready. -/
def sBusy : State := { s0 with lcState := .wait, lcGain := 25 }

/-- `F050` received and not yet taken (C1). -/
def sFrame : State :=
  { s0 with rxBuf := [(0, 0x46), (1, 0x30), (2, 0x35), (3, 0x30)], rxEof := true }

/-! ## Decoding: words written out from R82, R85, R88 and R90 -/

-- R82: op = 0b001 in bits 7:5, arg in bits 4:0: 0b001_11001 is LC.READ 25.
theorem test_decode_lcRead : decode (.stimulus (.request 0b00111001)) = .ok (.lcRead 25) := by decide
theorem test_decode_lcRead_last : decode (.stimulus (.request 0b00111111)) = .ok (.lcRead 31) := by decide
theorem test_decode_htStart : decode (.stimulus (.request 0b01000000)) = .ok .htStart := by decide
theorem test_decode_htRead : decode (.stimulus (.request 0b01100000)) = .ok .htRead := by decide
theorem test_decode_fmtEnc : decode (.stimulus (.request 0b10000000)) = .ok .fmtEnc := by decide
theorem test_decode_cmdTake : decode (.stimulus (.request 0b10100000)) = .ok .cmdTake := by decide
theorem test_decode_seqStep : decode (.stimulus (.request 0b11000000)) = .ok .seqStep := by decide
theorem test_decode_poll : decode (.stimulus (.request 0b11100000)) = .ok .poll := by decide
-- E1, E2, E3: reserved words.
theorem test_decode_reserved :
    decode (.stimulus (.request 0x00)) = .error (.reservedWord 0x00) ∧
    decode (.stimulus (.request 0x1F)) = .error (.reservedWord 0x1F) ∧
    decode (.stimulus (.request 0x41)) = .error (.reservedWord 0x41) ∧
    decode (.stimulus (.request 0xFF)) = .error (.reservedWord 0xFF) := by decide
-- R85: one wire per event.
theorem test_decode_events :
    decode (.stimulus (.strobe .tick)) = .ok .tick ∧
    decode (.stimulus (.strobe .txPop)) = .ok .txPop ∧
    decode (.stimulus (.strobe .wakeFire)) = .ok .wakeFire ∧
    decode (.stimulus (.strobe .htRelease)) = .ok .htRelease ∧
    decode (.stimulus (.strobe .reset)) = .ok .reset ∧
    decode (.stimulus (.strobe .pollStep)) = .ok .pollStep ∧
    decode (.stimulus (.rxByte 0xA5)) = .ok (.rxByte 0xA5) ∧
    decode (.stimulus (.lcStep 1)) = .ok (.lcStep 1) ∧
    decode (.stimulus (.htStep 0)) = .ok (.htStep 0) := by decide
-- R90: 0101_0001 aaaaaaaa bbbbbbbb cccccccc with a = `1`, b = `2`, c = `3`.
theorem test_decode_cmdQ :
    decode (.frame 0b01010001_00110001_00110010_00110011) = .ok (.cmdQ 0x31 0x32 0x33) := by decide
theorem test_decode_cmdS :
    decode (.frame 0b01010011_00110001_00110010_00110011) = .ok (.cmdS 0x31 0x32 0x33) := by decide
theorem test_decode_cmdF :
    decode (.frame 0b01000110_00110001_00110010_00110011) = .ok (.cmdF 0x31 0x32 0x33) := by decide
theorem test_decode_cmdR :
    decode (.frame 0b01010010_00110001_00110010_00110011) = .ok (.cmdR 0x31 0x32 0x33) := by decide
theorem test_decode_cmdG :
    decode (.frame 0b01000111_00110001_00110010_00110011) = .ok (.cmdG 0x31 0x32 0x33) := by decide
theorem test_decode_cmdM :
    decode (.frame 0b01001101_00110001_00110010_00110011) = .ok (.cmdM 0x31 0x32 0x33) := by decide
theorem test_decode_cmdN :
    decode (.frame 0b01001110_00110001_00110010_00110011) = .ok (.cmdN 0x31 0x32 0x33) := by decide
-- C4, C15: a leading digit, a lower-case letter.
theorem test_decode_unknown :
    decode (.frame 0x31323334) = .error (.unknownCommand 0x31) ∧
    decode (.frame 0x71303030) = .error (.unknownCommand 0x71) := by decide
-- The table's numbering: 8 bits are an operation word, 32 bits a frame with its first byte in bits 31:24.
theorem test_decodeTableWord :
    decodeTableWord 8 0x3B = some (.lcRead 27) ∧ decodeTableWord 8 0x00 = none ∧
    decodeTableWord 32 0x46303530 = some (.cmdF 0x30 0x35 0x30) ∧ decodeTableWord 32 0x0 = none ∧
    decodeTableWord 1 1 = none := by decide

/-! ## Well-formedness: one ill-formed term for each check (R201 (c)) -/

theorem test_wellFormed_events : WellFormed (.rxByte 0x51) = true ∧ WellFormed (.lcRead 0) = true := by decide
theorem test_illFormed_cmdQ : WellFormed (.cmdQ 0x51 0x30 0x30) = false := by decide
theorem test_illFormed_cmdS : WellFormed (.cmdS 0x30 0x53 0x30) = false := by decide
theorem test_illFormed_cmdF : WellFormed (.cmdF 0x30 0x30 0x46) = false := by decide
theorem test_illFormed_cmdR : WellFormed (.cmdR 0x52 0x30 0x30) = false := by decide
theorem test_illFormed_cmdG : WellFormed (.cmdG 0x30 0x47 0x30) = false := by decide
theorem test_illFormed_cmdM : WellFormed (.cmdM 0x30 0x30 0x4D) = false := by decide
theorem test_illFormed_cmdN : WellFormed (.cmdN 0x4E 0x30 0x30) = false := by decide
-- C12: bytes that are no command characters, whatever else they are, make a well-formed frame.
theorem test_wellFormed_cmdQ : WellFormed (.cmdQ 0x0D 0x0A 0x30) = true := by decide

/-! ## One step of each instruction -/

-- L8 and L11.
theorem test_lcRead_accepted : next (exec (.lcRead 25) s0) (fun t =>
    t.lcState = .wait ∧ t.lcGain = 25 ∧ t.opResp = .accepted ∧ t.lcBitcnt = 0) = true := by decide
theorem test_lcRead_illegalGain : next (exec (.lcRead 24) s0) (fun t =>
    t.opResp = .refusedGain ∧ t.errSticky = 0x10 ∧ t.lcState = .idle ∧ t.out = []) = true := by decide
-- L17, and L15 (LC_TIMEOUT = 3, the third sample that is not ready).
theorem test_lcStep_shift_and_notReady :
    next (exec (.lcStep 1) { s0 with lcState := .shift, lcGain := 25, lcShreg := 1, lcBitcnt := 1 }) (fun t =>
      t.lcShreg = 3 ∧ t.lcBitcnt = 2 ∧ t.out = [.lcPulse 2] ∧ t.lcState = .shift) = true ∧
    next (exec (.lcStep 1) { s0 with
      cfg := { Config.default with lcTimeout := some 3 }, lcState := .wait, lcGain := 27, lcWait := 2 }) (fun t =>
      t.lcStatus = .notReady ∧ t.lcWait = 3 ∧ t.lcState = .idle ∧ t.errSticky = 0x08) = true := by
  decide +kernel
-- L6: completion of the word 0x800000 (the pulse numbered 25 of a read at gain 25).
theorem test_lcStep_completes : next (exec (.lcStep 0)
    { s0 with lcState := .gain, lcGain := 25, lcShreg := 0x800000, lcBitcnt := 24 }) (fun t =>
    t.lcRaw = 0x800000 ∧ t.lcNeg = true ∧ t.lcMag = 0x800000 ∧ t.lcValid = true ∧ t.lcState = .idle ∧
      t.lcBitcnt = 25) = true := by decide
-- H7 and H13.
theorem test_htStart_accepted : next (exec .htStart s0) (fun t =>
    t.htState = .hold ∧ t.htDir = 1 ∧ t.htOut = 0 ∧ t.wakeArmed ∧ t.out = [.htArm] ∧ !mainBusy t) = true := by
  decide
theorem test_htStart_refused : next (exec .htStart { s0 with htState := .hold }) (fun t =>
    t.opResp = .refusedState ∧ t.errSticky = 0x20 ∧ t.htState = .hold ∧ t.out = []) = true := by decide
-- H8, H9.
theorem test_htRelease : next (exec .htRelease { s0 with htState := .hold, htOut := 0 }) (fun t =>
    t.htState = .armed ∧ t.htDir = 0) = true := by decide
theorem test_wakeFire : next (exec .wakeFire { s0 with wakeArmed := true }) (fun t =>
    !t.wakeArmed ∧ t.wakeFired) = true := by decide
-- H14 and H11.
theorem test_htRead_fromHold : next (exec .htRead
    { s0 with htState := .hold, htOut := 0, wakeFired := true, htShreg := 5, htBitidx := 9 }) (fun t =>
    t.htState = .w1 ∧ t.htDir = 0 ∧ !t.wakeFired ∧ t.htShreg = 0 ∧ t.htBitidx = 0 ∧ mainBusy t) = true := by
  decide
theorem test_htRead_refused : next (exec .htRead s0) (fun t =>
    t.opResp = .refusedState ∧ t.errSticky = 0x20) = true := by decide
-- H18, and H16 (HT_TO = 2, the second miss).
theorem test_htStep_sample_and_timeout :
    next (exec (.htStep 1) { s0 with htState := .bsmp, htDir := 0, htShreg := 5, htBitidx := 5 }) (fun t =>
      t.htShreg = 0xB ∧ t.htBitidx = 6 ∧ t.htState = .bwl) = true ∧
    next (exec (.htStep 1) { s0 with
      cfg := { Config.default with htTo := 2 }, htState := .w1, htDir := 0, htTo := 1 }) (fun t =>
      t.htStatus = .timeout ∧ t.htState = .idle ∧ t.htDir = 1 ∧ t.htFail ∧ !t.htNew ∧
        t.errSticky = 0x01) = true := by decide +kernel
-- H1 and H5 at their last step, the second as the scheduler's read (Q5).
theorem test_htStep_endOfFrame :
    next (exec (.htStep 0) { s0 with
      htState := .bwl, htDir := 0, htBitidx := 40, htShreg := 0x2D00170044 }) (fun t =>
      t.htFrame = 0x2D00170044 ∧ t.htStatus = .ok ∧ t.htNew ∧ !t.htFail ∧ t.out = [.htRest]) = true ∧
    next (exec (.htStep 0) { s0 with
      htState := .bwl, htDir := 0, htBitidx := 40, htShreg := 0x2D00170045, thState := .sampling,
      restCnt := 7 }) (fun t =>
      t.htFrame = 0 ∧ t.htStatus = .checksum ∧ !t.htNew ∧ t.htFail ∧ t.out = [] ∧ t.errSticky = 0x02 ∧
        t.thState = .waitingRest ∧ t.restCnt = 0) = true := by decide
-- Q9 and R150's first example.
theorem test_tick_cadence : next (exec .tick { s0 with cadCnt := 9 }) (fun t =>
    t.cadCnt = 0 ∧ t.sampleNow) = true := by decide
theorem test_tick_counts : next (exec .tick { s0 with cadCnt := 8 }) (fun t =>
    t.cadCnt = 9 ∧ !t.sampleNow) = true := by decide +kernel
-- Q1 and Q6.
theorem test_seqStep_wakes : next (exec .seqStep s0) (fun t =>
    t.thState = .waitingWake ∧ t.htState = .hold ∧ t.wakeArmed) = true := by decide
theorem test_seqStep_rests : next (exec .seqStep { s0 with thState := .waitingRest, restCnt := 9 }) (fun t =>
    t.restCnt = 10 ∧ t.thState = .awaitingWake) = true := by decide +kernel
-- R160 and Q12.
theorem test_poll : next (exec .poll s0) (fun t => t.pollPhase = .seq ∧ t.opResp = .accepted) = true := by decide
theorem test_poll_suspended : next (exec .poll { s0 with suspended := true }) (fun t =>
    t.pollPhase = .idle ∧ t.opResp = .accepted) = true := by decide
-- R162's example; R161: an embedded refusal leaves OP_RESP.
theorem test_pollStep_starts_read : next (exec .pollStep
    { s0 with pollPhase := .seq, thState := .waitingWake, wakeFired := true, htState := .armed }) (fun t =>
    t.thState = .sampling ∧ t.htState = .w1 ∧ t.pollPhase = .lc) = true := by decide
theorem test_pollStep_refusal : next (exec .pollStep
    { s0 with pollPhase := .enc, lcValid := true, txBusy := true }) (fun t =>
    t.opResp = .accepted ∧ t.errSticky = 0x20 ∧ t.pollPhase = .cmd) = true := by decide
-- F1 and F3.
theorem test_fmtEnc_valid : next (exec .fmtEnc { s0 with
    lcMag := 0x000992, lcValid := true, htNew := true, htFrame := 0x2D00170044 }) (fun t =>
    t.txBuf.map Prod.snd = [0x30, 0x30, 0x30, 0x30, 0x32, 0x34, 0x35, 0x30, 0x2C, 0x34, 0x35, 0x2C, 0x2B,
      0x32, 0x33, 0x2C, 0x0D, 0x0A] ∧ t.txIdx = 0 ∧ t.txBusy ∧ !t.htNew) = true := by decide +kernel
theorem test_fmtEnc_error : next (exec .fmtEnc { s0 with
    lcMag := 0x00CB20, lcNeg := true, lcValid := true, htFail := true }) (fun t =>
    t.txBuf.map Prod.snd = [0x30, 0x30, 0x2D, 0x35, 0x32, 0x30, 0x30, 0x30, 0x2C, 0x45, 0x58, 0x2C, 0x58,
      0x58, 0x58, 0x2C, 0x0D, 0x0A]) = true := by decide +kernel
-- S1 and S2, the source's own examples.
theorem test_loadField_positive : loadField { s0 with lcMag := 2450 } =
    [0x30, 0x30, 0x30, 0x30, 0x32, 0x34, 0x35, 0x30] := by decide
theorem test_loadField_negative : loadField { s0 with lcNeg := true, lcMag := 52000 } =
    [0x30, 0x30, 0x2D, 0x35, 0x32, 0x30, 0x30, 0x30] := by decide
-- F13.
theorem test_txPop_last : next (exec .txPop { s0 with
    txBusy := true, txIdx := 17, txBuf := [(17, 0x0A)] }) (fun t =>
    t.out = [.txByte 0x0A] ∧ t.txIdx = 18 ∧ !t.txBusy) = true := by decide +kernel
-- C3: a command character at index 2; R200: the byte at index 3.
theorem test_rxByte_restarts : next (exec (.rxByte 0x52) { s0 with
    rxBuf := [(0, 0x46), (1, 0x30)], rxIdx := 2 }) (fun t =>
    t.rxBuf = [(0, 0x52), (1, 0x30)] ∧ t.rxIdx = 1 ∧ !t.rxEof) = true := by decide
theorem test_rxByte_ends : next (exec (.rxByte 0x35) { s0 with
    rxBuf := [(0, 0x52), (1, 0x30), (2, 0x37)], rxIdx := 3 }) (fun t =>
    t.rxBuf = [(0, 0x52), (1, 0x30), (2, 0x37), (3, 0x35)] ∧ t.rxIdx = 0 ∧ t.rxEof) = true := by decide
-- C1a and C4.
theorem test_cmdTake_setpoint : next (exec .cmdTake sFrame) (fun t =>
    t.actClass = .setpoint ∧ t.actLetter = 0x46 ∧ t.actPct = 50 ∧ t.actPctOk ∧ !t.rxEof ∧
      t.cmdHold = sFrame.rxBuf ∧ t.out = [.actCmd .setpoint 0x46 50 true]) = true := by decide
theorem test_cmdTake_malformed : next (exec .cmdTake { s0 with
    rxBuf := [(0, 0x31), (1, 0x32), (2, 0x33), (3, 0x34)], rxEof := true }) (fun t =>
    t.errSticky = 0x04 ∧ t.actClass = .none ∧ t.out = [] ∧ !t.rxEof) = true := by decide
-- C12.
theorem test_cmdQ : next (exec (.cmdQ 0x0D 0x0A 0x30) s0) (fun t =>
    t.actClass = .halt ∧ t.actLetter = 0x51 ∧ !t.actPctOk ∧ t.suspended) = true := by decide
-- C10, C11.
theorem test_cmdS : next (exec (.cmdS 0x30 0x30 0x30) s0) (fun t =>
    t.actClass = .stop ∧ t.actLetter = 0x53 ∧ !t.actPctOk ∧ !t.suspended) = true := by decide
theorem test_cmdM : next (exec (.cmdM 0x30 0x30 0x30) s0) (fun t =>
    t.actClass = .sprayOn ∧ t.actLetter = 0x4D ∧ !t.actPctOk) = true := by decide
theorem test_cmdN : next (exec (.cmdN 0x30 0x30 0x30) s0) (fun t =>
    t.actClass = .sprayOff ∧ t.actLetter = 0x4E ∧ !t.actPctOk) = true := by decide
-- C8, C9.
theorem test_cmdF_zero : next (exec (.cmdF 0x30 0x30 0x30) s0) (fun t =>
    t.actPct = 0 ∧ t.actPctOk ∧ t.out = [.actCmd .setpoint 0x46 0 true]) = true := by decide
theorem test_cmdF_space : next (exec (.cmdF 0x20 0x35 0x30) s0) (fun t =>
    t.actClass = .setpoint ∧ !t.actPctOk) = true := by decide
-- C7, and R209's corner case `1 0`.
theorem test_cmdR_full : next (exec (.cmdR 0x31 0x30 0x30) s0) (fun t =>
    t.actPct = 100 ∧ t.actPctOk ∧ t.actLetter = 0x52) = true := by decide
theorem test_cmdR_space : next (exec (.cmdR 0x31 0x20 0x30) s0) (fun t => !t.actPctOk) = true := by decide
-- C6, C5.
theorem test_cmdG : next (exec (.cmdG 0x30 0x32 0x35) s0) (fun t =>
    t.actPct = 25 ∧ t.actPctOk ∧ t.actLetter = 0x47) = true := by decide
theorem test_cmdG_over : next (exec (.cmdG 0x31 0x30 0x31) s0) (fun t =>
    t.actClass = .setpoint ∧ !t.actPctOk) = true := by decide
-- E5.
theorem test_reset : next (exec .reset { sFrame with
    errSticky := 0x3F, suspended := true, htState := .bwl, htDir := 0, txBusy := true }) (fun t =>
    t.errSticky = 0 ∧ !t.suspended ∧ t.htState = .idle ∧ t.htDir = 1 ∧ t.htOut = 1 ∧ !t.txBusy ∧
      t.rxBuf = []) = true := by decide
-- R50, R21: the observation port at reset.
theorem test_observe : observeReg s0 18 = some 1 ∧ observeReg s0 10 = none ∧ observeReg s0 40 = none := by
  decide
-- R103: the trace notation's `ready` against the default DRDY_ACTIVE = 0.
theorem test_drawOfTrace : drawOfTrace sBusy 1 = 0 ∧ drawOfTrace { sBusy with lcState := .shift } 1 = 1 := by
  decide

/-! ## The step, and where a placed instruction runs -/

-- E1: a reserved word of the schedule; E4: a word that is held.
theorem test_step_reserved : next (step { s0 with inbox := [.request 0x00] }) (fun t =>
    t.opResp = .refusedReserved ∧ t.errSticky = 0x20) = true := by decide
theorem test_step_holds : next (step { sBusy with inbox := [.request 0x39] }) (fun t =>
    t.held = [0x39] ∧ t.lcState = .wait ∧ t.opResp = sBusy.opResp) = true := by decide
-- H7 and C12 as the first instruction after reset.
theorem test_withFetchWord_word : next (step (s0.withFetchWord 8 0x40)) (fun t =>
    t.htState = .hold ∧ t.wakeArmed) = true := by decide
theorem test_withFetchWord_frame : next (step (s0.withFetchWord 32 0x510D0A30)) (fun t =>
    t.actClass = .halt ∧ t.suspended ∧ !t.rxEof) = true := by decide

/-! ## Witnesses: states and operands that meet the hypotheses of the statements, clause by clause -/

/-- A read whose draws are data (R104). -/
def sShift : State := { s0 with lcState := .shift, lcGain := 25 }

/-- A read at its last extra pulse but two (R105). -/
def sGain : State := { s0 with lcState := .gain, lcGain := 27, lcBitcnt := 24 }

/-- A humidity read at the fall of its 40th bit, the frame of H1 in the shift register. -/
def sEnd : State := { s0 with htState := .bwl, htDir := 0, htBitidx := 40, htShreg := 0x2D00170044 }

/-- A load-cell timeout of three samples (L14). -/
def sTimeout (n : Nat) : State :=
  { s0 with cfg := { Config.default with lcTimeout := some 3 }, lcState := .wait, lcGain := 25, lcWait := n }

theorem test_safInv_reset : SafInv s0 := by
  refine ⟨?_, ?_, ?_, ?_, ?_, ?_⟩ <;> decide
/-- The last poll of the rest. -/
def sRest : State := { s0 with thState := .waitingRest, restCnt := 9 }
theorem test_safInv_rest : SafInv sRest := by
  refine ⟨?_, ?_, ?_, ?_, ?_, ?_⟩ <;> decide
theorem test_safInv_frame : SafInv sFrame := by
  refine ⟨?_, ?_, ?_, ?_, ?_, ?_⟩ <;> decide
/-- A tick to come. -/
def sTick : State := { s0 with inbox := [.strobe .tick] }

theorem witness_DecodedWordsReencode : decode (.frame 0x51000000) = .ok (.cmdQ 0 0 0) := by decide
theorem witness_StepRunsTheDecodedInstruction :
    (s0.held = [] ∧ ({ s0 with inbox := [.strobe .tick] } : State).inbox = .strobe .tick :: [] ∧
      decode (.stimulus (.strobe .tick)) = .ok .tick) ∧
    (mainBusy { s0 with held := [0x40] } = false ∧ decode (.stimulus (.request 0x40)) = .ok .htStart) ∧
    (mainBusy { sBusy with held := [0x40], inbox := [.lcStep 0] } = true ∧
      decode (.stimulus (.lcStep 0)) = .ok (.lcStep 0)) ∧
    (s0.inbox = [] ∧ s0.held = []) ∧ mainBusy { sBusy with held := [0x40] } = true := by decide
theorem witness_ReservedWordIsRefusedByTheStep :
    (0x1F : OpWord).toNat < 0x20 ∧ (0x40 ≤ (0x41 : OpWord).toNat ∧ (0x41 : OpWord).toNat % 32 ≠ 0) ∧
    (0x40 ≤ (0xFF : OpWord).toNat ∧ (0xFF : OpWord).toNat % 32 ≠ 0) ∧
    mainBusy { s0 with held := [0x41, 0x39] } = false ∧
    mainBusy { s0 with inbox := [.request 0x1F] } = false ∧ s0.held = [] ∧
    mainBusy { sBusy with held := [0x39], inbox := [.request 0xFF] } = true := by decide
theorem witness_RequestsAreHeldWhileMainIsBusy :
    encode .poll = .stimulus (.request 0xE0) ∧ encode (.lcRead 0) = .stimulus (.request 0x20) ∧
      mainBusy sBusy = true := by decide
theorem witness_RefusedRequestsChangeOnlyRespAndSticky :
    mainBusy s0 = false ∧ ((24 : BitVec 5) ≠ 25 ∧ (24 : BitVec 5) ≠ 26 ∧ (24 : BitVec 5) ≠ 27) ∧
    ((28 : BitVec 5) ≠ 25 ∧ (28 : BitVec 5) ≠ 26 ∧ (28 : BitVec 5) ≠ 27) ∧
    (mainBusy { s0 with htState := .armed } = false ∧ HtState.armed ≠ .idle) ∧ s0.wakeFired = false ∧
    s0.lcValid = false ∧ mainBusy { s0 with lcValid := true, txBusy := true } = false ∧
    s0.thState = .awaitingWake := by decide
theorem witness_OtherRequestsAreAccepted :
    (SafInv s0 ∧ mainBusy s0 = false ∧
      ((27 : BitVec 5) = 25 ∨ (27 : BitVec 5) = 26 ∨ (27 : BitVec 5) = 27) ∧ s0.htState = .idle) ∧
    SafInv sRest ∧ mainBusy sRest = false ∧ sRest.thState ≠ .awaitingWake :=
  ⟨⟨test_safInv_reset, by decide⟩, test_safInv_rest, by decide⟩
theorem witness_EventsThatAreNotEnabledDoNotOccur :
    s0.txBusy = false ∧ s0.wakeArmed = false ∧ s0.htState ≠ .hold ∧ s0.lcState = .idle ∧
    s0.htState = .idle ∧ s0.pollPhase = .idle ∧ unitBusy { sBusy with pollPhase := .enc } = true := by decide
theorem witness_LcReadAccepted :
    mainBusy s0 = false ∧ ((25 : BitVec 5) = 25 ∨ (25 : BitVec 5) = 26 ∨ (25 : BitVec 5) = 27) ∧
    s0.cfg.lcTimeout = none ∧
    ({ s0 with cfg := { Config.default with lcTimeout := some 1 } } : State).cfg.lcTimeout = some 1 ∧
    mainBusy { s0 with cfg := { Config.default with lcTimeout := some 1 } } = false := by decide
theorem witness_LcStepWaitsForDataReady :
    (sBusy.lcState = .wait ∧ (0 : Level) = sBusy.cfg.drdyActive ∧ (1 : Level) ≠ sBusy.cfg.drdyActive ∧
      sBusy.cfg.lcTimeout = none) ∧
    ((sTimeout 1).lcState = .wait ∧ (sTimeout 1).cfg.lcTimeout = some 3 ∧ (sTimeout 1).lcWait + 1 < 3) ∧
    ((sTimeout 2).lcState = .wait ∧ (sTimeout 2).cfg.lcTimeout = some 3 ∧ (sTimeout 2).lcWait + 1 = 3) := by
  decide
theorem witness_LcStepShiftsInOneBit :
    sShift.lcState = .shift ∧ ({ sShift with lcBitcnt := 23 } : State).lcState = .shift := by decide
theorem witness_LcStepGivesExtraPulsesAndCompletes :
    (sGain.lcState = .gain ∧ sGain.lcBitcnt + 1 ≠ sGain.lcGain) ∧
    (({ sGain with lcBitcnt := 26 } : State).lcState = .gain ∧ (26 : BitVec 5) + 1 = sGain.lcGain) := by decide
theorem witness_CompletedSampleIsTwosComplement :
    sGain.lcState = .gain ∧ (26 : BitVec 5) + 1 = sGain.lcGain ∧
      ∃ t, exec (.lcStep 0) { sGain with lcBitcnt := 26, lcShreg := 0x800000 } = .next t :=
  ⟨rfl, rfl, _, rfl⟩
theorem witness_LoadCellReadRoundTrip :
    sShift.lcState = .shift ∧ sShift.lcBitcnt = 0 ∧ gainLegal sShift.lcGain = true ∧
    [(0 : Level)].length = sShift.lcGain.toNat - 24 ∧ -(2 ^ 23) ≤ (-8388608 : Int) ∧
    (-8388608 : Int) ≤ 2 ^ 23 - 1 ∧ (8388607 : Int) ≤ 2 ^ 23 - 1 := by decide
theorem witness_CompletedReadIssuesGainPulses :
    sShift.lcState = .shift ∧ sShift.lcBitcnt = 0 ∧ gainLegal sShift.lcGain = true ∧
    (List.replicate 24 (0 : Level)).length = 24 ∧ [(1 : Level)].length = sShift.lcGain.toNat - 24 ∧
    next (runAll ((List.replicate 24 (0 : Level) ++ [1]).map .lcStep) sShift) (fun _ => true) = true := by
  decide
theorem witness_HtStartAccepted : mainBusy s0 = false ∧ s0.htState = .idle ∧
    ∃ t, exec .htStart s0 = .next t := ⟨by decide, rfl, _, rfl⟩
theorem witness_HtReleaseReleasesTheLine : ({ s0 with htState := .hold } : State).htState = .hold := rfl
theorem witness_WakeFireRecordsTheLatency : ({ s0 with wakeArmed := true } : State).wakeArmed = true := rfl
theorem witness_HtReadAccepted :
    mainBusy { s0 with wakeFired := true, htState := .hold } = false ∧
    mainBusy { s0 with wakeFired := true, htState := .armed } = false ∧
    next (exec .htRead { s0 with wakeFired := true, htState := .armed }) (fun _ => true) = true := by decide
theorem witness_HtStepWaitSeesItsTarget :
    ({ sEnd with htBitidx := 39 } : State).htState = .bwl ∧ (39 : BitVec 6) < 40 := by decide
theorem witness_HtStepMissCountsThenTimesOut :
    (({ s0 with htState := .w1, htTo := 98 } : State).htTo + 1 < s0.cfg.htTo) ∧
    (({ s0 with htState := .bwl, htTo := 99 } : State).htTo + 1 = s0.cfg.htTo) ∧
    (({ s0 with htState := .w2, htTo := 99, thState := .sampling } : State).htTo + 1 = s0.cfg.htTo) := by
  decide
theorem witness_HtStepSamplesOneBit : ({ s0 with htState := .bsmp } : State).htState = .bsmp := rfl
theorem witness_HtEndOfFrameSuccess :
    sEnd.htState = .bwl ∧ sEnd.htBitidx = 40 ∧
    ((sEnd.htShreg.extractLsb' 32 8).toNat + (sEnd.htShreg.extractLsb' 24 8).toNat +
      (sEnd.htShreg.extractLsb' 16 8).toNat + (sEnd.htShreg.extractLsb' 8 8).toNat) % 256 =
      (sEnd.htShreg.extractLsb' 0 8).toNat := by decide
theorem witness_HtEndOfFrameChecksumMismatch :
    (0xFF + 0xFF + 0xFF + 0xFF) % 256 ≠ 0xFD ∧
    ((0xFFFFFFFFFD : BitVec 40).extractLsb' 32 8).toNat = 0xFF ∧
    ((0xFFFFFFFFFD : BitVec 40).extractLsb' 24 8).toNat = 0xFF ∧
    ((0xFFFFFFFFFD : BitVec 40).extractLsb' 16 8).toNat = 0xFF ∧
    ((0xFFFFFFFFFD : BitVec 40).extractLsb' 8 8).toNat = 0xFF ∧
    ((0xFFFFFFFFFD : BitVec 40).extractLsb' 0 8).toNat = 0xFD ∧
    ({ sEnd with htShreg := 0xFFFFFFFFFD } : State).htBitidx = 40 := by decide
theorem witness_HumidityFrameAssembly :
    ({ s0 with htState := .w1 } : State).htState = .w1 ∧ s0.htBitidx = 0 ∧
    checksumOk 0x2D00170044 = true ∧ checksumOk 0x2D00170045 = false := by decide
theorem witness_HtFrameIsWrittenOnlyBySuccess :
    next (exec (.htStep 0) sEnd) (fun t => t.htFrame ≠ sEnd.htFrame) = true := by decide
theorem witness_HumidityReadStartsOnlyAfterWake :
    ({ s0 with wakeFired := true, htState := .hold } : State).htState.reading = false ∧
    next (exec .htRead { s0 with wakeFired := true, htState := .hold })
      (fun t => t.htState.reading = true) = true := by decide
theorem witness_TickCountsTheCadence :
    s0.cadCnt < s0.cfg.cadThresh ∧ s0.cadCnt + 1 ≠ s0.cfg.cadThresh ∧ 9 < s0.cfg.cadThresh ∧
      9 + 1 = s0.cfg.cadThresh := by decide
theorem witness_SeqStepStartsTheWakeSequence :
    mainBusy s0 = false ∧ s0.thState = .awaitingWake ∧ s0.htState = .idle ∧
      mainBusy { s0 with htState := .hold } = false := by decide
theorem witness_SeqStepReadsOnceAwake :
    mainBusy { s0 with thState := .waitingWake, wakeFired := true, htState := .armed } = false ∧
    mainBusy { s0 with thState := .waitingWake, htState := .hold, wakeArmed := true } = false := by decide
theorem witness_SeqStepCountsTheRest :
    mainBusy { s0 with thState := .waitingRest, restCnt := 8 } = false ∧ 8 < s0.cfg.nRest ∧
      8 + 1 < s0.cfg.nRest ∧ 9 + 1 = s0.cfg.nRest ∧
      mainBusy { s0 with thState := .waitingRest } = false ∧ s0.restCnt = 0 ∧ 0 < s0.cfg.nRest ∧
      9 < s0.cfg.nRest := by decide
theorem witness_SeqStepInSamplingIsOnlyAccepted :
    mainBusy { s0 with thState := .sampling } = false := by decide
theorem witness_PollStartsTheMicroSequence :
    mainBusy s0 = false ∧ s0.suspended = false ∧ mainBusy { s0 with suspended := true } = false := by decide
theorem witness_PollStepSequencerPhase : unitBusy { s0 with pollPhase := .seq } = false := by decide
theorem witness_PollStepLoadCellPhase :
    unitBusy { s0 with pollPhase := .lc, sampleNow := true } = false ∧
      unitBusy { s0 with pollPhase := .lc } = false ∧ s0.sampleNow = false := by decide
theorem witness_PollStepEncodePhase :
    unitBusy { s0 with pollPhase := .enc, lcValid := true } = false ∧
      unitBusy { s0 with pollPhase := .enc } = false ∧ s0.lcValid = false := by decide
theorem witness_PollStepCommandPhase :
    unitBusy { sFrame with pollPhase := .cmd } = false ∧ sFrame.rxEof = true ∧
      sFrame.rxBuf.writtenBelow 4 = true ∧ unitBusy { s0 with pollPhase := .cmd } = false ∧
      s0.rxEof = false := by decide
theorem witness_FmtEncWritesTheFrame :
    mainBusy { s0 with lcValid := true } = false ∧ s0.txBusy = false := by decide
theorem test_frame_of_other_width : Config.legal { Config.default with tempW := 4 } = true ∧
    (telemetryFrame { s0 with cfg := { Config.default with tempW := 4 }, htNew := true }).length = 19 := by
  decide
theorem witness_DefaultLayoutFrame :
    s0.cfg.layout = Config.default.layout ∧ s0.cfg.tempW = 3 ∧
      ({ s0 with htNew := true } : State).htNew = true ∧ (s0.htNew = false ∧ s0.htFail = false) ∧
      ({ s0 with htFail := true } : State).htFail = true := by decide
theorem witness_LoadFieldReadsBackTheSample :
    (8388608 : BitVec 24).toNat ≤ 8388608 ∧ 1 ≤ (8388608 : BitVec 24).toNat ∧
      (1 : BitVec 24).toNat ≤ 8388608 ∧ 1 ≤ (1 : BitVec 24).toNat ∧
      s0.lcMag.toNat ≤ 8388608 ∧ s0.lcNeg = false := by decide
-- R181: the receiver takes S2's field, and no field whose sign stands elsewhere.
theorem test_loadFieldValue :
    loadFieldValue [0x30, 0x30, 0x2D, 0x35, 0x32, 0x30, 0x30, 0x30] = some (-52000) ∧
    loadFieldValue [0x2D, 0x30, 0x30, 0x35, 0x32, 0x30, 0x30, 0x30] = none ∧
    loadFieldValue [0x31, 0x30, 0x2D, 0x35, 0x32, 0x30, 0x30, 0x30] = none := by decide
theorem witness_CadenceWithoutReadingYieldsPlaceholders :
    (SafInv s0 ∧ mainBusy s0 = false ∧ s0.suspended = false ∧ s0.htNew = false ∧ s0.htFail = false ∧
      ¬(s0.thState = .waitingWake ∧ s0.wakeFired = true) ∧ s0.txBusy = false ∧
      s0.cfg.layout = Config.default.layout ∧ s0.cfg.tempW = 3) ∧
    [0x30, 0x30, 0x2D, 0x35, 0x32, 0x30, 0x30, 0x30] = loadField { s0 with
      lcNeg := (0xFF34E0 : BitVec 24).getLsbD 23
      lcMag := if (0xFF34E0 : BitVec 24).getLsbD 23 then ~~~(0xFF34E0 : BitVec 24) + 1 else 0xFF34E0 } :=
  ⟨⟨test_safInv_reset, by decide⟩, by decide⟩
theorem witness_TxPopStreamsTheNextByte :
    16 < s0.cfg.frameW ∧ 16 + 1 < s0.cfg.frameW ∧ 17 < s0.cfg.frameW ∧ 17 + 1 = s0.cfg.frameW ∧
      Memory.read 17 [(16, 0x0D), (17, 0x0A)] = some 0x0A ∧
      Memory.read 16 [(16, 0x0D), (17, 0x0A)] = some 0x0D := by decide
theorem witness_RxByteStoresAndFrames :
    s0.rxIdx < 4 ∧ ({ s0 with rxIdx := 3 } : State).rxIdx < 4 ∧ (0x30 : Byte) ≠ 0x51 := by decide
theorem witness_CmdTakeCopiesAndDispatches :
    mainBusy s0 = false ∧ s0.rxEof = false ∧ mainBusy sFrame = false ∧ sFrame.rxEof = true ∧
    sFrame.rxBuf.read 0 = some 0x46 ∧ sFrame.rxBuf.read 1 = some 0x30 ∧ sFrame.rxBuf.read 2 = some 0x35 ∧
    sFrame.rxBuf.read 3 = some 0x30 ∧
    decode (.frame (Frame.ofBytes 0x46 0x30 0x35 0x30)) = .ok (.cmdF 0x30 0x35 0x30) ∧
    decode (.frame (Frame.ofBytes 0x31 0x32 0x33 0x34)) = .error (.unknownCommand 0x31) := by decide
theorem witness_SetpointCommandsParseThePercentage :
    setpointPercentage 0x30 0x30 0x30 0 ∧ setpointPercentage 0x31 0x30 0x30 100 ∧
      ∀ p, ¬setpointPercentage 0x31 0x30 0x31 p := by
  refine ⟨by unfold setpointPercentage; decide, by unfold setpointPercentage; decide, ?_⟩
  rintro p ⟨-, -, -, -, -, -, h, hp⟩
  simp at h
  omega
theorem witness_ResetMeetsTheInvariant : Config.legal Config.default = true ∧
    Config.legal { Config.default with lcTimeout := some 1, tWakeUs := 20000, htTo := 1 } = true := by decide
theorem witness_StepKeepsTheInvariant :
    SafInv sTick ∧ next (step sTick) (fun _ => true) = true :=
  ⟨by refine ⟨?_, ?_, ?_, ?_, ?_, ?_⟩ <;> decide, by decide +kernel⟩
theorem witness_InvariantStatesNeverStop : SafInv sFrame := test_safInv_frame
theorem witness_StickyBitsAreClearedOnlyByReset :
    next (exec (.lcRead 24) { s0 with suspended := true, errSticky := 0x01 }) (fun _ => true) = true ∧
      Instr.lcRead 24 ≠ .reset := by decide
theorem witness_ParametersAndEmittedEventsStay : next (exec .htStart s0) (fun _ => true) = true := by decide
theorem witness_OnlyTheListedAccessesWriteMemory :
    next (exec .tick s0) (fun _ => true) = true ∧ Instr.tick ≠ .reset ∧
      ¬(Instr.tick = .pollStep ∧ s0.pollPhase = .cmd) := by decide +kernel
theorem witness_InterruptLevelEventsCommute :
    SafInv s0 ∧ Instr.tick ∈ [Instr.tick, .rxByte 0, .txPop, .wakeFire, .htRelease] ∧
      Instr.rxByte 0 ∈ [Instr.tick, .rxByte 0, .txPop, .wakeFire, .htRelease] ∧
      Instr.tick ≠ .rxByte 0 := ⟨test_safInv_reset, by decide⟩
theorem witness_InterruptLevelFrame :
    next (exec .tick s0) (fun _ => true) = true ∧ next (exec (.rxByte 0x46) s0) (fun _ => true) = true ∧
    next (exec .txPop { s0 with txBusy := true, txIdx := 17, txBuf := [(17, 0x0A)] }) (fun _ => true) = true ∧
    next (exec .wakeFire { s0 with wakeArmed := true }) (fun _ => true) = true ∧
    next (exec .htRelease { s0 with htState := .hold }) (fun _ => true) = true := by decide +kernel

end Sys2Proof.Tests
end

/-! PROOFS. The statements about spec/00_scope.md: what a step fetches and runs (R8, R69), requests that are
held or refused (R9, R80, R83), events that do not occur (R85), what every instruction keeps (R7, R10, R20),
the load field as a receiver reads it (R12, R181), and the invariant after reset (R50). -/

namespace Sys2Proof.Machine

/-! ## The control port -/

/-- An operation request is its word at the control port (R9, R82). -/
theorem exec_eq_atPort {i : Instr} {w : OpWord} (h : encode i = .stimulus (.request w)) :
    ∃ take, ∀ s, exec i s = atPort w take s := by
  cases i <;> cases h
  case lcRead g => exact ⟨lcReadTake g, fun _ => rfl⟩
  case htStart => exact ⟨htStartTake, fun _ => rfl⟩
  case htRead => exact ⟨htReadTake, fun _ => rfl⟩
  case fmtEnc => exact ⟨fmtEncTake, fun _ => rfl⟩
  case cmdTake => exact ⟨cmdTakeTake, fun _ => rfl⟩
  case seqStep => exact ⟨seqStepTake, fun _ => rfl⟩
  case poll => exact ⟨pollTake, fun _ => rfl⟩

/-- Settles O7: every request goes through the port, which holds its word while main level is busy. -/
theorem requestsAreHeldWhileMainIsBusy : Obligations.RequestsAreHeldWhileMainIsBusy := by
  intro i w s hw hb
  obtain ⟨take, hexec⟩ := exec_eq_atPort hw
  rw [hexec, atPort_of_busy hb]
  rfl

/-! ## Events that are not enabled -/

theorem execTxPop_of_idle {s : State} (h : s.txBusy = false) : execTxPop s = .next s := by
  simp [execTxPop, h, notEnabled]

theorem execWakeFire_of_unarmed {s : State} (h : s.wakeArmed = false) : execWakeFire s = .next s := by
  simp [execWakeFire, h, notEnabled]

theorem execHtRelease_of_not_hold {s : State} (h : s.htState ≠ .hold) :
    execHtRelease s = .next s := by
  simp [execHtRelease, h, notEnabled]

theorem execLcStep_of_idle {s : State} (d : Level) (h : s.lcState = .idle) :
    execLcStep d s = .next s := by
  simp [execLcStep, h, notEnabled]

/-- HT.STEP is not enabled in the three states of HTRX that read nothing (R130). -/
theorem execHtStep_of_not_reading {s : State} (l : Level)
    (h : s.htState = .idle ∨ s.htState = .hold ∨ s.htState = .armed) :
    execHtStep l s = .next s := by
  rcases h with h | h | h <;> simp [execHtStep, h, htTarget, notEnabled]

/-- POLL.STEP is not enabled when no phase is due or a unit is busy (R161). -/
theorem execPollStep_of_not_due {s : State} (h : s.pollPhase = .idle ∨ unitBusy s = true) :
    execPollStep s = .next s := by
  unfold execPollStep
  split
  · rfl
  · have hp : s.pollPhase = .idle := h.resolve_right ‹_›
    simp [hp, notEnabled]

/-- Settles O10, event by event. -/
theorem eventsThatAreNotEnabledDoNotOccur : Obligations.EventsThatAreNotEnabledDoNotOccur :=
  fun _ => ⟨execTxPop_of_idle, execWakeFire_of_unarmed, execHtRelease_of_not_hold,
    fun d => execLcStep_of_idle d, fun l => execHtStep_of_not_reading l, execPollStep_of_not_due⟩

/-! ## Fetching and stepping -/

theorem nextScheduled_of_nil {s : State} (h : s.inbox = []) : nextScheduled s = none := by
  simp [nextScheduled, h]

theorem nextScheduled_of_cons {s : State} {x : Stimulus} {xs : List Stimulus}
    (h : s.inbox = x :: xs) : nextScheduled s = some (x, { s with inbox := xs }) := by
  simp [nextScheduled, h]

/-- With no word held, or none that can be taken, the schedule is next (R69, R80). -/
theorem fetch_eq_nextScheduled {s : State} (h : s.held = [] ∨ mainBusy s = true) :
    fetch s = nextScheduled s := by
  unfold fetch
  split
  · rfl
  · rename_i hh
    have hb : mainBusy s = true := h.resolve_left (by simp [hh])
    simp [hb]

/-- A held word is next as soon as main level is free (R80). -/
theorem fetch_of_held {s : State} {w : OpWord} {ws : List OpWord} (hh : s.held = w :: ws)
    (hb : mainBusy s = false) : fetch s = some (.request w, { s with held := ws }) := by
  simp [fetch, hh, hb]

theorem step_of_fetch_none {s : State} (h : fetch s = none) : step s = .next s := by
  simp [step, h]

theorem step_of_decode_ok {s t : State} {x : Stimulus} {i : Instr} (hf : fetch s = some (x, t))
    (hd : decode (.stimulus x) = .ok i) : step s = exec i t := by
  simp [step, hf, hd]

theorem step_of_decode_error {s t : State} {w : OpWord} {e : DecodeError}
    (hf : fetch s = some (.request w, t)) (hd : decode (.stimulus (.request w)) = .error e) :
    step s = reservedRequest w t := by
  simp [step, hf, hd]

/-- Settles O5: each clause is what the fetch finds, decoded and run. -/
theorem stepRunsTheDecodedInstruction : Obligations.StepRunsTheDecodedInstruction := by
  intro s
  refine ⟨fun x xs i hh hi hd => ?_, fun w ws i hh hb hd => ?_,
    fun w ws x xs i hh hb hi hd => ?_, fun hi h => ?_⟩
  · exact step_of_decode_ok ((fetch_eq_nextScheduled (.inl hh)).trans (nextScheduled_of_cons hi)) hd
  · exact step_of_decode_ok (fetch_of_held hh hb) hd
  · exact step_of_decode_ok ((fetch_eq_nextScheduled (.inr hb)).trans (nextScheduled_of_cons hi)) hd
  · exact step_of_fetch_none ((fetch_eq_nextScheduled h).trans (nextScheduled_of_nil hi))

/-- The words R83 reserves have no instruction: `op` is 0, or `op` is from 2 to 7 and `arg` is not 0. -/
theorem decode_reserved {w : OpWord} (h : w.toNat < 0x20 ∨ (0x40 ≤ w.toNat ∧ w.toNat % 32 ≠ 0)) :
    decode (.stimulus (.request w)) = .error (.reservedWord w) := by
  have hop : (w.extractLsb' 5 3).toNat = w.toNat / 32 := by
    have := w.isLt
    simp [BitVec.extractLsb'_toNat, Nat.shiftRight_eq_div_pow]
    omega
  have harg : (w.extractLsb' 0 5).toNat = w.toNat % 32 := by simp [BitVec.extractLsb'_toNat]
  have hne : w.extractLsb' 5 3 ≠ 1 := fun e => by rw [e] at hop; simp at hop; omega
  have hcase : w.extractLsb' 5 3 = 0 ∨ w.extractLsb' 0 5 ≠ 0 := by
    rcases h with h | ⟨-, h⟩
    · exact .inl (BitVec.eq_of_toNat_eq (by simp [hop]; omega))
    · exact .inr fun e => h (by rw [← harg, e]; rfl)
  simp only [decode, decodeStimulus, decodeRequest, if_neg hne]
  rcases hcase with h0 | h0
  · simp [h0]
  · exact if_pos h0

/-- A reserved word on a free port is refused (R83, R230 (a)). -/
theorem reservedRequest_of_free {w : OpWord} {s : State} (h : mainBusy s = false) :
    reservedRequest w s = .next (s.refuse .refusedReserved .opRefused) := by
  rw [reservedRequest, atPort_of_free h, respond]

/-- Settles O6: a reserved word does not decode, so the step brings it to the port, which refuses it or
holds it. -/
theorem reservedWordIsRefusedByTheStep : Obligations.ReservedWordIsRefusedByTheStep := by
  intro s w hw
  have hd := decode_reserved hw
  refine ⟨fun ws hh hb => ?_, fun xs hh hi hb => ?_, fun xs hi hb => ?_⟩
  · have hf := fetch_of_held hh hb
    exact (step_of_decode_error hf hd).trans (reservedRequest_of_free hb)
  · have hf := (fetch_eq_nextScheduled (.inl hh)).trans (nextScheduled_of_cons hi)
    exact (step_of_decode_error hf hd).trans (reservedRequest_of_free hb)
  · have hf := (fetch_eq_nextScheduled (.inr hb)).trans (nextScheduled_of_cons hi)
    exact (step_of_decode_error hf hd).trans (atPort_of_busy hb)

/-! ## The parameters and the emitted events -/

/-- The parameters are those before and no emitted event is taken back (logs 1 and 4). -/
def KeepsLog (s t : State) : Prop := t.cfg = s.cfg ∧ s.out <+: t.out

/-- Neither field is written. -/
theorem KeepsLog.of_eq {s t : State} (hc : t.cfg = s.cfg) (ho : t.out = s.out) : KeepsLog s t :=
  ⟨hc, ho ▸ List.prefix_refl _⟩

/-- Events are only put at the end. -/
theorem KeepsLog.of_append {s t : State} {es : List OutEvent} (hc : t.cfg = s.cfg)
    (ho : t.out = s.out ++ es) : KeepsLog s t :=
  ⟨hc, ho ▸ List.prefix_append _ _⟩

/-- A request keeps the log when what it does once taken does. -/
theorem keepsLog_of_atPort {w : OpWord} {take : State → Taken} {s t : State}
    (hk : ∀ u, take s = .accepted u → KeepsLog s u) (h : atPort w take s = .next t) : KeepsLog s t := by
  obtain ⟨-, rfl⟩ | ⟨-, u, hu, rfl⟩ | ⟨-, r, e, -, rfl⟩ := atPort_next h
  · exact .of_eq rfl rfl
  · exact hk u hu
  · exact .of_eq rfl rfl

/-- An operation performed inside a POLL phase keeps the log when what it does once taken does. -/
theorem keepsLog_of_embed {s t : State} {p : PollPhase} {r : Taken}
    (hk : ∀ u, r = .accepted u → KeepsLog s u) (h : embed s (toPhase p) r = .next t) :
    KeepsLog s t := by
  obtain ⟨u, hu, rfl⟩ | ⟨c, e, -, rfl⟩ := embed_next h
  · exact hk u hu
  · exact .of_eq rfl rfl

theorem keepsLog_dispatchAct (cls : ActClass) (letter : Byte) (pct : Option (BitVec 7)) (s : State) :
    KeepsLog s (dispatchAct cls letter pct s) := by
  rw [dispatchAct_eq]
  exact .of_append rfl rfl

theorem keepsLog_dispatch (c d2 d1 d0 : Byte) (s : State) : KeepsLog s (dispatch c d2 d1 d0 s) := by
  obtain ⟨cls, letter, pct, h, -⟩ | ⟨-, h⟩ := dispatch_eq c d2 d1 d0 s
  · rw [h]
    exact keepsLog_dispatchAct cls letter pct s
  · rw [h]
    exact .of_eq rfl rfl

theorem keepsLog_lcReadTake {g : BitVec 5} {s u : State} (h : lcReadTake g s = .accepted u) :
    KeepsLog s u := by
  unfold lcReadTake at h
  split at h <;> cases h
  exact .of_eq rfl rfl

theorem keepsLog_htStartTake {s u : State} (h : htStartTake s = .accepted u) : KeepsLog s u := by
  unfold htStartTake at h
  split at h <;> cases h
  exact .of_append rfl rfl

theorem keepsLog_htReadTake {s u : State} (h : htReadTake s = .accepted u) : KeepsLog s u := by
  unfold htReadTake at h
  split at h <;> cases h
  exact .of_eq rfl rfl

theorem keepsLog_fmtEncTake {s u : State} (h : fmtEncTake s = .accepted u) : KeepsLog s u := by
  unfold fmtEncTake at h
  split at h <;> cases h
  exact .of_eq rfl rfl

theorem keepsLog_cmdTakeTake {s u : State} (h : cmdTakeTake s = .accepted u) : KeepsLog s u := by
  obtain ⟨-, hc⟩ | ⟨-, c, d2, d1, d0, -, hc⟩ | ⟨-, f, -, hc⟩ := cmdTakeTake_cases s <;>
    cases hc.symm.trans h
  · exact .of_eq rfl rfl
  · exact keepsLog_dispatch c d2 d1 d0 (cmdCopy c d2 d1 d0 s)

theorem keepsLog_seqStepTake {s u : State} (h : seqStepTake s = .accepted u) : KeepsLog s u := by
  obtain ⟨-, -, hc⟩ | ⟨-, -, hc⟩ | ⟨-, -, hc⟩ | ⟨-, -, hc⟩ | ⟨-, hc⟩ | ⟨-, hc⟩ := seqStepTake_cases s <;>
    cases hc.symm.trans h
  case inl => exact .of_append rfl rfl
  all_goals exact .of_eq rfl rfl

theorem keepsLog_pollTake {s u : State} (h : pollTake s = .accepted u) : KeepsLog s u := by
  unfold pollTake at h
  split at h <;> cases h <;> exact .of_eq rfl rfl

theorem keepsLog_execTick {s t : State} (h : execTick s = .next t) : KeepsLog s t := by
  unfold execTick at h
  split at h <;> cases h <;> exact .of_eq rfl rfl

theorem keepsLog_execRxByte {b : Byte} {s t : State} (h : execRxByte b s = .next t) :
    KeepsLog s t := by
  unfold execRxByte at h
  dsimp only at h
  split at h <;> cases h
  exact .of_eq rfl rfl

theorem keepsLog_execTxPop {s t : State} (h : execTxPop s = .next t) : KeepsLog s t := by
  unfold execTxPop at h
  split at h
  · split at h <;> cases h
    exact .of_append rfl rfl
  · cases h
    exact .of_eq rfl rfl

theorem keepsLog_execWakeFire {s t : State} (h : execWakeFire s = .next t) : KeepsLog s t := by
  unfold execWakeFire at h
  split at h <;> cases h <;> exact .of_eq rfl rfl

theorem keepsLog_execHtRelease {s t : State} (h : execHtRelease s = .next t) : KeepsLog s t := by
  unfold execHtRelease at h
  split at h <;> cases h <;> exact .of_eq rfl rfl

theorem keepsLog_lcStepWait (d : Level) (s : State) : KeepsLog s (lcStepWait d s) := by
  unfold lcStepWait
  dsimp only
  split
  · exact .of_eq rfl rfl
  · split
    · exact .of_eq rfl rfl
    · split <;> exact .of_eq rfl rfl

theorem keepsLog_lcStepGain (s : State) : KeepsLog s (lcStepGain s) := by
  unfold lcStepGain
  split <;> exact .of_append rfl rfl

theorem keepsLog_execLcStep {d : Level} {s t : State} (h : execLcStep d s = .next t) :
    KeepsLog s t := by
  unfold execLcStep at h
  split at h <;> cases h
  · exact .of_eq rfl rfl
  · exact keepsLog_lcStepWait d s
  · exact .of_append rfl rfl
  · exact keepsLog_lcStepGain s

theorem keepsLog_htWaitHit (s : State) : KeepsLog s (htWaitHit s) := by
  unfold htWaitHit htEndOfFrame htSuccess htChecksumMismatch htFailed
  simp only [htHook_eq]
  split
  · split
    · exact .of_append rfl rfl
    · exact .of_eq rfl rfl
  · exact .of_eq rfl rfl

theorem keepsLog_htWaitMiss (s : State) : KeepsLog s (htWaitMiss s) := by
  unfold htWaitMiss htTimeout htFailed
  simp only [htHook_eq]
  split <;> exact .of_eq rfl rfl

theorem keepsLog_execHtStep {l : Level} {s t : State} (h : execHtStep l s = .next t) :
    KeepsLog s t := by
  obtain ⟨-, rfl⟩ | ⟨-, rfl⟩ | ⟨g, -, ⟨-, rfl⟩ | ⟨-, rfl⟩⟩ := execHtStep_next h
  · exact .of_eq rfl rfl
  · exact .of_eq rfl rfl
  · exact keepsLog_htWaitHit s
  · exact keepsLog_htWaitMiss s

theorem keepsLog_pollLc (s : State) : KeepsLog s (pollLc s) := by
  unfold pollLc
  split <;> exact .of_eq rfl rfl

theorem keepsLog_execPollStep {s t : State} (h : execPollStep s = .next t) : KeepsLog s t := by
  unfold execPollStep at h
  split at h
  · cases h
    exact .of_eq rfl rfl
  · split at h
    · cases h
      exact .of_eq rfl rfl
    · exact keepsLog_of_embed (fun _ => keepsLog_seqStepTake) h
    · cases h
      exact keepsLog_pollLc s
    · split at h
      · exact keepsLog_of_embed (fun _ => keepsLog_fmtEncTake) h
      · cases h
        exact .of_eq rfl rfl
    · split at h
      · exact keepsLog_of_embed (fun _ => keepsLog_cmdTakeTake) h
      · cases h
        exact .of_eq rfl rfl

/-- Settles O57, instruction by instruction: an operation request keeps the log because what it does once
taken does, a command because its dispatch does. -/
theorem parametersAndEmittedEventsStay : Obligations.ParametersAndEmittedEventsStay := by
  intro i s t h
  cases i with
  | lcRead g => exact keepsLog_of_atPort (fun _ => keepsLog_lcReadTake) h
  | htStart => exact keepsLog_of_atPort (fun _ => keepsLog_htStartTake) h
  | htRead => exact keepsLog_of_atPort (fun _ => keepsLog_htReadTake) h
  | fmtEnc => exact keepsLog_of_atPort (fun _ => keepsLog_fmtEncTake) h
  | cmdTake => exact keepsLog_of_atPort (fun _ => keepsLog_cmdTakeTake) h
  | seqStep => exact keepsLog_of_atPort (fun _ => keepsLog_seqStepTake) h
  | poll => exact keepsLog_of_atPort (fun _ => keepsLog_pollTake) h
  | tick => exact keepsLog_execTick h
  | rxByte b => exact keepsLog_execRxByte h
  | txPop => exact keepsLog_execTxPop h
  | wakeFire => exact keepsLog_execWakeFire h
  | htRelease => exact keepsLog_execHtRelease h
  | reset => cases h; exact KeepsLog.of_eq rfl rfl
  | lcStep d => exact keepsLog_execLcStep h
  | htStep l => exact keepsLog_execHtStep h
  | pollStep => exact keepsLog_execPollStep h
  | cmdQ => cases h; exact keepsLog_dispatchAct _ _ _ s
  | cmdS => cases h; exact keepsLog_dispatchAct _ _ _ s
  | cmdF => cases h; exact keepsLog_dispatchAct _ _ _ s
  | cmdR => cases h; exact keepsLog_dispatchAct _ _ _ s
  | cmdG => cases h; exact keepsLog_dispatchAct _ _ _ s
  | cmdM => cases h; exact keepsLog_dispatchAct _ _ _ s
  | cmdN => cases h; exact keepsLog_dispatchAct _ _ _ s

/-! ## The load field and its receiver -/

theorem digit_lt (n i : Nat) : digit n i < 10 := Nat.mod_lt _ (by omega)

theorem isDigit_asc_digit (n i : Nat) : isDigit (asc (digit n i)) = true := by
  have h : ∀ k < 10, isDigit (asc k) = true := by decide
  exact h _ (digit_lt n i)

theorem asc_digit_ne_minus (n i : Nat) : asc (digit n i) ≠ 0x2D := by
  have h : ∀ k < 10, asc k ≠ 0x2D := by decide
  exact h _ (digit_lt n i)

theorem asc_digit_eq_zero_iff (n i : Nat) : asc (digit n i) = 0x30 ↔ digit n i = 0 := by
  have h : ∀ k < 10, asc k = 0x30 ↔ k = 0 := by decide
  exact h _ (digit_lt n i)

@[simp] theorem dig_asc_digit (n i : Nat) : dig (asc (digit n i)) = digit n i := by
  have h : ∀ k < 10, dig (asc k) = k := by decide
  exact h _ (digit_lt n i)

/-- Every byte of a digit-pack is the character of a digit (R188). -/
theorem mem_dec {w n : Nat} {b : Byte} (h : b ∈ dec w n) : ∃ i, b = asc (digit n i) := by
  induction w with
  | zero => simp [dec] at h
  | succ w ih =>
    rcases List.mem_cons.mp h with h | h
    · exact ⟨w, h⟩
    · exact ih h

theorem isDigit_of_mem_dec {w n : Nat} {b : Byte} (h : b ∈ dec w n) : isDigit b = true := by
  obtain ⟨i, rfl⟩ := mem_dec h
  exact isDigit_asc_digit n i

theorem minus_not_mem_dec (w n : Nat) : (0x2D : Byte) ∉ dec w n := fun h => by
  obtain ⟨i, hi⟩ := mem_dec h
  exact asc_digit_ne_minus n i hi.symm

/-- Reading the digits of a digit-pack after the value `a`. -/
theorem foldl_dec (w n : Nat) :
    ∀ a, (dec w n).foldl (fun m b => 10 * m + dig b) a = a * 10 ^ w + n % 10 ^ w := by
  induction w with
  | zero => intro a; simp [dec, Nat.mod_one]
  | succ w ih =>
    intro a
    have hmod : n % 10 ^ (w + 1) = n % 10 ^ w + 10 ^ w * digit n w := by
      rw [pow_succ, Nat.mod_mul, digit]
    rw [dec, List.foldl_cons, ih, dig_asc_digit, hmod]
    ring

/-- The digits of a number that fits are read back as it (R188). -/
theorem digitsValue_dec {w n : Nat} (h : n < 10 ^ w) : digitsValue (dec w n) = n := by
  rw [digitsValue, foldl_dec, Nat.zero_mul, Nat.zero_add, Nat.mod_eq_of_lt h]

theorem digitsValue_zeros_append (k : Nat) (bs : List Byte) :
    digitsValue (List.replicate k 0x30 ++ bs) = digitsValue bs := by
  induction k with
  | zero => rfl
  | succ k ih => rw [← ih]; rfl

/-- The digits of a positive number that fits: zeros, then a significant digit and the rest. -/
theorem dec_eq_zeros_append {w n : Nat} (hpos : 0 < n) (h : n < 10 ^ w) :
    ∃ k d ds, dec w n = List.replicate k 0x30 ++ d :: ds ∧ d ≠ 0x30 := by
  induction w with
  | zero => simp at h; omega
  | succ w ih =>
    by_cases hd : digit n w = 0
    · have hlt : n < 10 ^ w := by
        have hq : n / 10 ^ w < 10 := Nat.div_lt_of_lt_mul (by rwa [← pow_succ])
        rw [digit, Nat.mod_eq_of_lt hq] at hd
        exact (Nat.div_eq_zero_iff_lt (by positivity)).mp hd
      obtain ⟨k, d, ds, hk, hne⟩ := ih hlt
      exact ⟨k + 1, d, ds, by rw [dec, (asc_digit_eq_zero_iff n w).mpr hd, hk]; rfl, hne⟩
    · exact ⟨0, _, dec w n, rfl, fun h0 => hd ((asc_digit_eq_zero_iff n w).mp h0)⟩

/-- Of a number with fewer digits than places the first place holds a padding zero. -/
theorem dec_succ_eq_zeros_append {w n : Nat} (hpos : 0 < n) (h : n < 10 ^ w) :
    ∃ k d ds, dec (w + 1) n = List.replicate (k + 1) 0x30 ++ d :: ds ∧ d ≠ 0x30 := by
  obtain ⟨k, d, ds, hk, hne⟩ := dec_eq_zeros_append hpos h
  have h0 : digit n w = 0 := by rw [digit, Nat.div_eq_of_lt h]
  exact ⟨k, d, ds, by rw [dec, (asc_digit_eq_zero_iff n w).mpr h0, hk]; rfl, hne⟩

/-- The first significant digit stands behind the zeros. -/
theorem findIdx_zeros_append (k : Nat) {d : Byte} {ds : List Byte} (hd : d ≠ 0x30) :
    (List.replicate k 0x30 ++ d :: ds).findIdx (fun b => b ≠ 0x30) = k := by
  induction k with
  | zero => rw [List.replicate_zero, List.nil_append, List.findIdx_cons, decide_eq_true hd]; rfl
  | succ k ih => rw [List.replicate_succ, List.cons_append, List.findIdx_cons, ih]; rfl

/-- The sign takes the place of the last zero before the first significant digit (R181). -/
theorem signAdjacent_zeros_append {k : Nat} {d : Byte} {ds : List Byte} (hd : d ≠ 0x30) :
    signAdjacent (List.replicate (k + 1) 0x30 ++ d :: ds) =
      (List.replicate (k + 1) 0x30 ++ d :: ds).set k 0x2D := by
  rw [signAdjacent, findIdx_zeros_append (k + 1) hd]
  simp

theorem zeros_append_set_minus (k : Nat) (bs : List Byte) :
    (List.replicate (k + 1) 0x30 ++ bs).set k 0x2D = List.replicate k 0x30 ++ 0x2D :: bs := by
  rw [List.replicate_succ', List.append_assoc, List.set_append_right _ _ (by simp)]
  simp

/-- The receiver takes a field of digits alone as their value (R181). -/
theorem loadFieldValue_dec (w n : Nat) :
    loadFieldValue (dec w n) = some (digitsValue (dec w n) : Int) := by
  have hdigits : (dec w n).all isDigit = true := List.all_eq_true.mpr fun _ => isDigit_of_mem_dec
  simp only [loadFieldValue, if_neg (minus_not_mem_dec w n), hdigits, if_true]

/-- The receiver takes zeros, the sign and digits from a significant one on as their value negated (R181). -/
theorem loadFieldValue_signed {k : Nat} {d : Byte} {ds : List Byte} (hd : d ≠ 0x30)
    (hdigits : (d :: ds).all isDigit = true) :
    loadFieldValue (List.replicate k 0x30 ++ 0x2D :: d :: ds) =
      some (-(digitsValue (d :: ds) : Int)) := by
  have hzeros : ∀ b ∈ List.replicate k (0x30 : Byte), decide (b ≠ 0x2D) = true := fun b hb => by
    rw [List.eq_of_mem_replicate hb]; rfl
  have hbefore : (List.replicate k 0x30 ++ 0x2D :: d :: ds).takeWhile (fun b : Byte => b ≠ 0x2D) =
      List.replicate k 0x30 := by
    rw [List.takeWhile_append_of_pos hzeros]; simp
  have hafter : (List.replicate k 0x30 ++ 0x2D :: d :: ds).dropWhile (fun b : Byte => b ≠ 0x2D) =
      0x2D :: d :: ds := by
    rw [List.dropWhile_append_of_pos hzeros]; simp
  simp only [loadFieldValue, hbefore, hafter, List.drop_succ_cons, List.drop_zero, hdigits]
  simpa using hd

theorem eightDigits_eq_dec (n : Nat) : eightDigits n = dec loadW n := rfl

theorem loadField_of_nonneg {s : State} (h : s.lcNeg = false) :
    loadField s = dec loadW s.lcMag.toNat := by
  simp [loadField, h]

/-- The load field of a negative sample: the digits of the magnitude with the sign before the first
significant one (R181). -/
theorem loadField_of_neg {s : State} (hn : s.lcNeg = true) (hpos : 0 < s.lcMag.toNat)
    (hmag : s.lcMag.toNat < 10 ^ 7) :
    ∃ k d ds, dec loadW s.lcMag.toNat = List.replicate (k + 1) 0x30 ++ d :: ds ∧ d ≠ 0x30 ∧
      loadField s = (dec loadW s.lcMag.toNat).set k 0x2D := by
  obtain ⟨k, d, ds, hdec, hd⟩ := dec_succ_eq_zeros_append hpos hmag
  refine ⟨k, d, ds, hdec, hd, ?_⟩
  rw [loadField, if_pos hn, show dec loadW _ = _ from hdec, signAdjacent_zeros_append hd]

theorem loadField_length (s : State) : (loadField s).length = 8 := fieldBytes_length s false .load

/-- A receiver reads the sample's signed value in the load field (R23, R181). -/
theorem loadFieldValue_loadField {s : State} (hmag : s.lcMag.toNat < 10 ^ 7)
    (hpos : s.lcNeg = true → 0 < s.lcMag.toNat) : loadFieldValue (loadField s) = some (lcValue s) := by
  have hval : digitsValue (dec loadW s.lcMag.toNat) = s.lcMag.toNat :=
    digitsValue_dec (Nat.lt_of_lt_of_le hmag (by decide))
  cases hn : s.lcNeg
  · rw [loadField_of_nonneg hn, loadFieldValue_dec, hval]
    simp [lcValue, hn]
  · obtain ⟨k, d, ds, hdec, hd, hfield⟩ := loadField_of_neg hn (hpos hn) hmag
    have hdigits : (d :: ds).all isDigit = true := List.all_eq_true.mpr fun b hb =>
      isDigit_of_mem_dec (hdec ▸ List.mem_append_right _ hb)
    rw [hdec, digitsValue_zeros_append] at hval
    rw [hfield, hdec, zeros_append_set_minus, loadFieldValue_signed hd hdigits, hval]
    simp [lcValue, hn]

/-- Settles O43: the digits of the magnitude are zeros, then a significant one and the rest; the sign stands
on the last of these zeros. -/
theorem loadFieldReadsBackTheSample : Obligations.LoadFieldReadsBackTheSample := by
  intro s hmag hpos
  have hlt : s.lcMag.toNat < 10 ^ 7 := by omega
  refine ⟨loadField_of_nonneg, fun hn => ?_, loadField_length s, loadFieldValue_loadField hlt hpos⟩
  obtain ⟨k, d, ds, hdec, hd, hfield⟩ := loadField_of_neg hn (hpos hn) hlt
  have hlen : (dec loadW s.lcMag.toNat).length = 8 := dec_length _ _
  have hk : k + 1 < 8 := by
    rw [hdec] at hlen
    simp at hlen
    omega
  rw [eightDigits_eq_dec, hfield]
  refine ⟨k + 1, by omega, hk, fun j hj => ?_, ?_, ?_, fun j hj => ?_⟩
  · rw [hdec, List.getElem?_append_left (by simpa using hj)]
    simp [hj]
  · rw [hdec, List.getElem?_append_right (by simp)]
    simpa using hd
  · exact List.getElem?_set_self (by omega)
  · exact List.getElem?_set_ne (fun e => hj (by omega))

/-! ## The state after reset -/

/-- What a legal configuration gives the counters: the cadence and rest thresholds are not 0 (R7). -/
theorem legal_thresholds_pos {c : Config} (h : c.legal = true) : 0 < c.cadThresh ∧ 0 < c.nRest := by
  simp only [Config.legal, Bool.and_eq_true, decide_eq_true_eq] at h
  tauto

/-- The state of R50 meets the invariant for every legal configuration, unit by unit. -/
theorem safInv_resetWith {c : Config} (h : c.legal = true) : SafInv (State.resetWith c) := by
  have shape : ShapeInv (State.resetWith c) := ⟨h, resetWith_memories_wf c⟩
  have lc : LcInv (State.resetWith c) := by simp [LcInv, State.resetWith]
  have ht : HtInv (State.resetWith c) := by simp [HtInv, State.resetWith, HtState.reading]
  have seq : SeqInv (State.resetWith c) := by
    simp [SeqInv, State.resetWith, HtState.reading, legal_thresholds_pos h]
  have tx : TxInv (State.resetWith c) := by simp [TxInv, State.resetWith]
  have rx : RxInv (State.resetWith c) := by simp [RxInv, State.resetWith, Memory.writtenBelow]
  exact ⟨shape, lc, ht, seq, tx, rx⟩

/-- Settles O54: the default configuration is one of the legal ones. -/
theorem resetMeetsTheInvariant : Obligations.ResetMeetsTheInvariant :=
  ⟨safInv_resetWith (by decide), fun _ => safInv_resetWith⟩

end Sys2Proof.Machine

/-! PROOFS. The statements about spec/10_state.md: the sample registers (R23, R106), RESET and the state after it
(R50, R250), what writes HT_FRAME (R27), the sticky registers (R38, R211), and the invariant: every step keeps it
and from its states none stops (R52, R63). -/

namespace Sys2Proof.Machine

/-! ## The sample registers -/

theorem sampleNeg_eq_decide (w : BitVec 24) : sampleNeg w = decide (w.toInt < 0) := by
  rw [← BitVec.msb_eq_toInt]
  rfl

/-- The magnitude of a sample is the absolute value of its two's-complement integer (R23, R106). -/
theorem sampleMag_toNat (w : BitVec 24) : (sampleMag w).toNat = w.toInt.natAbs := by
  have hneg : ~~~w + 1 = -w := (BitVec.neg_eq_not_add w).symm
  have hw := w.isLt
  cases hs : sampleNeg w
  · have hpos : ¬ w.toInt < 0 := by simpa [sampleNeg_eq_decide] using hs
    rw [sampleMag, hs, if_neg Bool.false_ne_true]
    rw [BitVec.toInt_eq_toNat_cond] at hpos ⊢
    split at hpos <;> omega
  · have hlt : w.toInt < 0 := by simpa [sampleNeg_eq_decide] using hs
    rw [sampleMag, hs, if_pos rfl, hneg, BitVec.toNat_neg]
    rw [BitVec.toInt_eq_toNat_cond] at hlt ⊢
    split at hlt <;> omega

/-- The registers after a completed read hold the shifted-in word, whatever the level drawn (R105, R106). -/
theorem execLcStep_completes {s : State} (d : Level) (hg : s.lcState = .gain)
    (hc : s.lcBitcnt + 1 = s.lcGain) : execLcStep d s = .next (lcComplete (lcPulse s)) := by
  simp only [execLcStep, hg, lcStepGain, if_pos hc]

/-- Settles O15: sign and magnitude are those of the word's two's-complement integer. -/
theorem completedSampleIsTwosComplement : Obligations.CompletedSampleIsTwosComplement := by
  intro s t d hg hc h
  have ht : t = lcComplete (lcPulse s) := by
    cases (execLcStep_completes d hg hc).symm.trans h
    rfl
  have hneg : t.lcNeg = decide (s.lcShreg.toInt < 0) := by rw [ht]; exact sampleNeg_eq_decide _
  have hmag : t.lcMag.toNat = s.lcShreg.toInt.natAbs := by rw [ht]; exact sampleMag_toNat _
  refine ⟨?_, hmag, hneg, fun hn => ?_⟩
  · simp only [lcValue, hneg, hmag, decide_eq_true_eq]
    split <;> omega
  · have : s.lcShreg.toInt < 0 := by simpa [hneg] using hn
    omega

/-! ## Reset -/

/-- Settles O51: RESET starts from the state of R50 and keeps of it every register that R50 gives a value. -/
theorem resetEventRestoresTheResetValues : Obligations.ResetEventRestoresTheResetValues := by
  intro s
  refine ⟨resetEffect s, rfl, rfl, ?_⟩
  simp [resetEffect, State.resetWith, mainBusy, unitBusy, HtState.reading]

/-- Settles O52, register by register. -/
theorem resetStateHasTheResetValues : Obligations.ResetStateHasTheResetValues :=
  ⟨by decide, rfl, rfl, fun _ => ⟨rfl, rfl, rfl⟩⟩

/-! ## What one instruction can do -/

/-- No unit operation is in progress: LCSER is idle and HTRX is in none of its reading states (R51). -/
theorem unitBusy_eq_false {s : State} :
    unitBusy s = false ↔ s.lcState = .idle ∧ s.htState.reading = false := by
  simp [unitBusy]

theorem unitBusy_of_mainBusy {s : State} (h : mainBusy s = false) : unitBusy s = false := by
  simp only [mainBusy, Bool.or_eq_false_iff] at h
  exact h.1

/-- The changes an instruction other than RESET and HT.STEP can make to the five units, each under the
conditions of its rule. -/
inductive UnitEffect (s : State) : State → Prop
  | stay : UnitEffect s s
  /-- An error sets its bit, a refusal included (R226, R230). -/
  | raise (e : ErrorCause) : UnitEffect s (s.raise e)
  /-- A load-cell read starts, by LC.READ or on the cadence (R101, R163). -/
  | lcRead {g : BitVec 5} (hg : gainLegal g = true ∨ g = s.cfg.pollGain) (free : unitBusy s = false) :
      UnitEffect s (lcReadEffect g s)
  /-- A wake sequence starts, by HT.START (R121). -/
  | htStart (idle : s.htState = .idle) : UnitEffect s (htStartEffect s)
  /-- A wake sequence starts, by SEQ.STEP (R152). -/
  | seqStart (idle : s.htState = .idle) :
      UnitEffect s { htStartEffect s with thState := .waitingWake }
  /-- A humidity read starts, by HT.READ (R128). -/
  | htRead (ready : htReadReady s = true) (free : unitBusy s = false) : UnitEffect s (htReadEffect s)
  /-- A humidity read starts, by SEQ.STEP (R153). -/
  | seqRead (ready : htReadReady s = true) (free : unitBusy s = false) :
      UnitEffect s { htReadEffect s with thState := .sampling }
  /-- A SEQ.STEP of the rest is counted (R155). -/
  | seqRest (rest : s.thState = .waitingRest) :
      UnitEffect s { s with
        restCnt := bump s.cfg.nRest s.restCnt
        thState := if s.restCnt + 1 = s.cfg.nRest then .awaitingWake else .waitingRest }
  /-- A frame is formatted (R180). -/
  | fmtEnc (valid : s.lcValid = true) (free : s.txBusy = false) : UnitEffect s (fmtEncEffect s)
  /-- A command is dispatched (R206). -/
  | command (c d2 d1 d0 : Byte) : UnitEffect s (dispatch c d2 d1 d0 s)
  /-- An ended frame is copied and dispatched (R205). -/
  | cmdTake {c d2 d1 d0 : Byte} (eof : s.rxEof = true) (frame : readFrame s = .ok (c, d2, d1, d0)) :
      UnitEffect s (dispatch c d2 d1 d0 (cmdCopy c d2 d1 d0 s))
  /-- The cadence is reached (R150). -/
  | cadReached (reached : s.cadCnt + 1 = s.cfg.cadThresh) : UnitEffect s { s with cadCnt := 0 }
  /-- The cadence is counted (R150). -/
  | cadCounted (below : s.cadCnt + 1 ≠ s.cfg.cadThresh) :
      UnitEffect s { s with cadCnt := bump s.cfg.cadThresh s.cadCnt }
  /-- A byte is received (R200). -/
  | rxByte {b : Byte} (inside : (rxStoreIdx b s).toNat < cmdLen) :
      UnitEffect s { s with
        rxBuf := Memory.write (rxStoreIdx b s).toNat b s.rxBuf
        rxIdx := if rxStoreIdx b s + 1 = 4 then 0 else rxStoreIdx b s + 1
        rxEof := if rxStoreIdx b s + 1 = 4 then true else s.rxEof }
  /-- A byte is handed to the transport (R190). -/
  | txPop {b : Byte} (busy : s.txBusy = true) (byte : memRead .txBuf s.txIdx s = .ok b) :
      UnitEffect s { s.emit (.txByte b) with
        txIdx := bump s.cfg.frameW s.txIdx
        txBusy := decide (s.txIdx + 1 ≠ s.cfg.frameW) }
  /-- The wake latency has elapsed (R125). -/
  | wakeFire (armed : s.wakeArmed = true) :
      UnitEffect s { s with wakeArmed := false, wakeFired := true }
  /-- The hold time has elapsed (R124). -/
  | htRelease (hold : s.htState = .hold) : UnitEffect s { s with htDir := 0, htState := .armed }
  /-- The data wire is ready (R103). -/
  | lcReady (wait : s.lcState = .wait) : UnitEffect s { s with lcState := .shift }
  /-- A sample that is not ready is counted (R103). -/
  | lcCounted {limit : Nat} (wait : s.lcState = .wait) (finite : s.cfg.lcTimeout = some limit)
      (below : bump limit s.lcWait ≠ limit) :
      UnitEffect s { s with lcWait := bump limit s.lcWait }
  /-- The last sample that is not ready ends the read (R103). -/
  | lcNotReady {limit : Nat} (wait : s.lcState = .wait) (finite : s.cfg.lcTimeout = some limit)
      (reached : bump limit s.lcWait = limit) :
      UnitEffect s ({ s with
        lcWait := bump limit s.lcWait, lcStatus := .notReady, lcState := .idle }.raise .sensorNotReady)
  /-- A pulse with a data bit (R104). -/
  | lcShift (d : Level) (shift : s.lcState = .shift) : UnitEffect s (lcStepShift d s)
  /-- A pulse without one (R105). -/
  | lcGain (gain : s.lcState = .gain) (more : s.lcBitcnt + 1 ≠ s.lcGain) : UnitEffect s (lcPulse s)
  /-- The pulse that completes the read (R105, R106). -/
  | lcDone (gain : s.lcState = .gain) (last : s.lcBitcnt + 1 = s.lcGain) :
      UnitEffect s (lcComplete (lcPulse s))

/-- A change of the units, and any writing of OP_RESP, the held words, poll_phase and sample_now. -/
def MainEffect (s t : State) : Prop :=
  ∃ u resp words phase now, UnitEffect s u ∧
    t = { u with opResp := resp, held := words, pollPhase := phase, sampleNow := now }

theorem UnitEffect.main {s u : State} (h : UnitEffect s u) : MainEffect s u :=
  ⟨u, _, _, _, _, h, rfl⟩

theorem MainEffect.toPhase {s t : State} (p : PollPhase) : MainEffect s t → MainEffect s (toPhase p t)
  | ⟨u, _, _, _, _, h, e⟩ => ⟨u, _, _, _, _, h, by rw [e]; rfl⟩

theorem MainEffect.respond {s t : State} (r : OpResp) :
    MainEffect s t → MainEffect s { t with opResp := r }
  | ⟨u, _, _, _, _, h, e⟩ => ⟨u, _, _, _, _, h, by rw [e]⟩

/-- A request is held, refused, or has the effect it has once taken. -/
theorem mainEffect_of_atPort {w : OpWord} {take : State → Taken} {s t : State}
    (htake : unitBusy s = false → ∀ u, take s = .accepted u → MainEffect s u)
    (h : atPort w take s = .next t) : MainEffect s t := by
  obtain ⟨-, rfl⟩ | ⟨hb, u, hu, rfl⟩ | ⟨-, r, e, -, rfl⟩ := atPort_next h
  · exact ⟨s, _, _, _, _, .stay, rfl⟩
  · exact (htake (unitBusy_of_mainBusy hb) u hu).respond _
  · exact ⟨s.raise e, _, _, _, _, .raise e, rfl⟩

/-- An operation inside a POLL phase has the effect it has once taken, or raises its error. -/
theorem mainEffect_of_embed {s t : State} {p : PollPhase} {r : Taken}
    (htake : ∀ u, r = .accepted u → MainEffect s u) (h : embed s (toPhase p) r = .next t) :
    MainEffect s t := by
  obtain ⟨u, hu, rfl⟩ | ⟨c, e, -, rfl⟩ := embed_next h
  · exact (htake u hu).toPhase p
  · exact (UnitEffect.raise e).main.toPhase p

theorem mainEffect_lcReadTake {g : BitVec 5} {s u : State} (free : unitBusy s = false)
    (h : lcReadTake g s = .accepted u) : MainEffect s u := by
  unfold lcReadTake at h
  split at h <;> cases h
  exact (UnitEffect.lcRead (.inl ‹_›) free).main

theorem mainEffect_htStartTake {s u : State} (h : htStartTake s = .accepted u) : MainEffect s u := by
  unfold htStartTake at h
  split at h <;> cases h
  exact (UnitEffect.htStart ‹_›).main

theorem mainEffect_htReadTake {s u : State} (free : unitBusy s = false)
    (h : htReadTake s = .accepted u) : MainEffect s u := by
  unfold htReadTake at h
  split at h <;> cases h
  exact (UnitEffect.htRead ‹_› free).main

theorem mainEffect_fmtEncTake {s u : State} (h : fmtEncTake s = .accepted u) : MainEffect s u := by
  unfold fmtEncTake at h
  split at h <;> cases h
  next hv =>
    simp only [Bool.and_eq_true, Bool.not_eq_true'] at hv
    exact (UnitEffect.fmtEnc hv.1 hv.2).main

theorem mainEffect_cmdTakeTake {s u : State} (h : cmdTakeTake s = .accepted u) : MainEffect s u := by
  obtain ⟨-, hc⟩ | ⟨he, c, d2, d1, d0, hr, hc⟩ | ⟨-, f, -, hc⟩ := cmdTakeTake_cases s <;>
    cases hc.symm.trans h
  · exact UnitEffect.stay.main
  · exact (UnitEffect.cmdTake he hr).main

theorem mainEffect_seqStepTake {s u : State} (free : unitBusy s = false)
    (h : seqStepTake s = .accepted u) : MainEffect s u := by
  obtain ⟨-, hi, hc⟩ | ⟨-, -, hc⟩ | ⟨-, hr, hc⟩ | ⟨-, -, hc⟩ | ⟨-, hc⟩ | ⟨hw, hc⟩ :=
    seqStepTake_cases s <;> cases hc.symm.trans h
  · exact (UnitEffect.seqStart hi).main
  · exact (UnitEffect.seqRead hr free).main
  · exact UnitEffect.stay.main
  · exact UnitEffect.stay.main
  · exact (UnitEffect.seqRest hw).main

theorem mainEffect_pollTake {s u : State} (h : pollTake s = .accepted u) : MainEffect s u := by
  unfold pollTake at h
  split at h <;> cases h
  · exact UnitEffect.stay.main
  · exact UnitEffect.stay.main.toPhase .seq

theorem mainEffect_execTick {s t : State} (h : execTick s = .next t) : MainEffect s t := by
  unfold execTick at h
  split at h <;> cases h
  · exact ⟨_, _, _, _, _, .cadReached ‹_›, rfl⟩
  · exact (UnitEffect.cadCounted ‹_›).main

theorem mainEffect_execRxByte {b : Byte} {s t : State} (h : execRxByte b s = .next t) :
    MainEffect s t := by
  unfold execRxByte at h
  dsimp only at h
  split at h <;> cases h
  exact (UnitEffect.rxByte ‹_›).main

theorem mainEffect_execTxPop {s t : State} (h : execTxPop s = .next t) : MainEffect s t := by
  unfold execTxPop at h
  split at h
  · split at h <;> cases h
    exact (UnitEffect.txPop ‹_› ‹_›).main
  · cases h
    exact UnitEffect.stay.main

theorem mainEffect_execWakeFire {s t : State} (h : execWakeFire s = .next t) : MainEffect s t := by
  unfold execWakeFire at h
  split at h <;> cases h
  · exact (UnitEffect.wakeFire ‹_›).main
  · exact UnitEffect.stay.main

theorem mainEffect_execHtRelease {s t : State} (h : execHtRelease s = .next t) : MainEffect s t := by
  unfold execHtRelease at h
  split at h <;> cases h
  · exact (UnitEffect.htRelease ‹_›).main
  · exact UnitEffect.stay.main

theorem unitEffect_lcStepWait {s : State} (d : Level) (wait : s.lcState = .wait) :
    UnitEffect s (lcStepWait d s) := by
  unfold lcStepWait
  dsimp only
  split
  · exact .lcReady wait
  · split
    · exact .stay
    · split
      · exact .lcNotReady wait ‹_› ‹_›
      · exact .lcCounted wait ‹_› ‹_›

theorem unitEffect_lcStepGain {s : State} (gain : s.lcState = .gain) :
    UnitEffect s (lcStepGain s) := by
  unfold lcStepGain
  split
  · exact .lcDone gain ‹_›
  · exact .lcGain gain ‹_›

theorem mainEffect_execLcStep {d : Level} {s t : State} (h : execLcStep d s = .next t) :
    MainEffect s t := by
  unfold execLcStep at h
  split at h <;> cases h
  · exact UnitEffect.stay.main
  · exact (unitEffect_lcStepWait d ‹_›).main
  · exact (UnitEffect.lcShift d ‹_›).main
  · exact (unitEffect_lcStepGain ‹_›).main

theorem mainEffect_pollLc {s : State} (free : unitBusy s = false) : MainEffect s (pollLc s) := by
  unfold pollLc
  split
  · exact ⟨_, _, _, _, _, .lcRead (.inr rfl) free, rfl⟩
  · exact UnitEffect.stay.main.toPhase .cmd

theorem mainEffect_execPollStep {s t : State} (h : execPollStep s = .next t) : MainEffect s t := by
  unfold execPollStep at h
  split at h
  · cases h
    exact UnitEffect.stay.main
  · have free : unitBusy s = false := by simpa using ‹¬unitBusy s = true›
    split at h
    · cases h
      exact UnitEffect.stay.main
    · exact mainEffect_of_embed (fun _ => mainEffect_seqStepTake free) h
    · cases h
      exact mainEffect_pollLc free
    · split at h
      · exact mainEffect_of_embed (fun _ => mainEffect_fmtEncTake) h
      · cases h
        exact UnitEffect.stay.main.toPhase .cmd
    · split at h
      · exact mainEffect_of_embed (fun _ => mainEffect_cmdTakeTake) h
      · cases h
        exact UnitEffect.stay.main.toPhase .idle

/-- What HT.STEP with the level `l` can do, each change under the conditions of its rule. -/
inductive HtStepEffect (l : Level) (s : State) : State → Prop
  | stay (off : s.htState.reading = false) : HtStepEffect l s s
  /-- The level is the bit (R134). -/
  | sample (bit : s.htState = .bsmp) : HtStepEffect l s (htSample l s)
  /-- A wait sees its target and the frame goes on (R129). -/
  | hit (target : htTarget s.htState = some l) (more : ¬(s.htState = .bwl ∧ s.htBitidx = 40)) :
      HtStepEffect l s { s with htTo := 0, htState := htNext s.htState }
  /-- The frame ends with a right checksum (R137). -/
  | valid (target : htTarget s.htState = some l) (bwl : s.htState = .bwl) (last : s.htBitidx = 40)
      (sum : checksumOk s.htShreg = true) : HtStepEffect l s (htSuccess { s with htTo := 0 })
  /-- The frame ends with a wrong checksum (R138). -/
  | invalid (bwl : s.htState = .bwl) (last : s.htBitidx = 40) (sum : checksumOk s.htShreg = false) :
      HtStepEffect l s (htFailed .checksum .checksumMismatch { s with htTo := 0 })
  /-- A wait misses its target (R130). -/
  | miss {g : Level} (target : htTarget s.htState = some g) (below : s.htTo + 1 ≠ s.cfg.htTo) :
      HtStepEffect l s { s with htTo := bump s.cfg.htTo s.htTo }
  /-- The last miss aborts the read (R131). -/
  | timeout {g : Level} (target : htTarget s.htState = some g) (reached : s.htTo + 1 = s.cfg.htTo) :
      HtStepEffect l s (htFailed .timeout .sensorTimeout { s with htTo := bump s.cfg.htTo s.htTo })

theorem htStepEffect_htWaitHit {l : Level} {s : State} (target : htTarget s.htState = some l) :
    HtStepEffect l s (htWaitHit s) := by
  unfold htWaitHit htEndOfFrame
  split
  next h =>
    split
    · exact .valid target h.1 h.2 ‹_›
    · exact .invalid h.1 h.2 (by simpa using ‹¬checksumOk _ = true›)
  next h => exact .hit target h

theorem htStepEffect_htWaitMiss {l g : Level} {s : State} (target : htTarget s.htState = some g) :
    HtStepEffect l s (htWaitMiss s) := by
  unfold htWaitMiss
  dsimp only
  split
  · exact .timeout target ‹_›
  · exact .miss target ‹_›

theorem htStepEffect_of_next {l : Level} {s t : State} (h : execHtStep l s = .next t) :
    HtStepEffect l s t := by
  obtain ⟨off, rfl⟩ | ⟨bit, rfl⟩ | ⟨g, target, ⟨rfl, rfl⟩ | ⟨-, rfl⟩⟩ := execHtStep_next h
  · exact .stay off
  · exact .sample bit
  · exact htStepEffect_htWaitHit target
  · exact htStepEffect_htWaitMiss target

/-- Everything an instruction can do when it answers a next state: RESET, HT.STEP, or an effect of the
other units and of main level. -/
theorem exec_next {i : Instr} {s t : State} (h : exec i s = .next t) :
    (i = .reset ∧ t = resetEffect s) ∨ (∃ l, i = .htStep l ∧ HtStepEffect l s t) ∨
      MainEffect s t := by
  cases i with
  | lcRead g => exact .inr (.inr (mainEffect_of_atPort (fun free _ => mainEffect_lcReadTake free) h))
  | htStart => exact .inr (.inr (mainEffect_of_atPort (fun _ _ => mainEffect_htStartTake) h))
  | htRead => exact .inr (.inr (mainEffect_of_atPort (fun free _ => mainEffect_htReadTake free) h))
  | fmtEnc => exact .inr (.inr (mainEffect_of_atPort (fun _ _ => mainEffect_fmtEncTake) h))
  | cmdTake => exact .inr (.inr (mainEffect_of_atPort (fun _ _ => mainEffect_cmdTakeTake) h))
  | seqStep => exact .inr (.inr (mainEffect_of_atPort (fun free _ => mainEffect_seqStepTake free) h))
  | poll => exact .inr (.inr (mainEffect_of_atPort (fun _ _ => mainEffect_pollTake) h))
  | tick => exact .inr (.inr (mainEffect_execTick h))
  | rxByte b => exact .inr (.inr (mainEffect_execRxByte h))
  | txPop => exact .inr (.inr (mainEffect_execTxPop h))
  | wakeFire => exact .inr (.inr (mainEffect_execWakeFire h))
  | htRelease => exact .inr (.inr (mainEffect_execHtRelease h))
  | reset => cases h; exact .inl ⟨rfl, rfl⟩
  | lcStep d => exact .inr (.inr (mainEffect_execLcStep h))
  | htStep l => exact .inr (.inl ⟨l, rfl, htStepEffect_of_next h⟩)
  | pollStep => exact .inr (.inr (mainEffect_execPollStep h))
  | cmdQ d2 d1 d0 => cases h; exact .inr (.inr (UnitEffect.command 0x51 d2 d1 d0).main)
  | cmdS d2 d1 d0 => cases h; exact .inr (.inr (UnitEffect.command 0x53 d2 d1 d0).main)
  | cmdF d2 d1 d0 => cases h; exact .inr (.inr (UnitEffect.command 0x46 d2 d1 d0).main)
  | cmdR d2 d1 d0 => cases h; exact .inr (.inr (UnitEffect.command 0x52 d2 d1 d0).main)
  | cmdG d2 d1 d0 => cases h; exact .inr (.inr (UnitEffect.command 0x47 d2 d1 d0).main)
  | cmdM d2 d1 d0 => cases h; exact .inr (.inr (UnitEffect.command 0x4D d2 d1 d0).main)
  | cmdN d2 d1 d0 => cases h; exact .inr (.inr (UnitEffect.command 0x4E d2 d1 d0).main)

/-- A dispatch writes the four act registers, the suspension, the log and ERR_STICKY only (R206, R216). -/
theorem dispatch_frame (c d2 d1 d0 : Byte) (s : State) :
    dispatch c d2 d1 d0 s = { s with
      actClass := (dispatch c d2 d1 d0 s).actClass
      actLetter := (dispatch c d2 d1 d0 s).actLetter
      actPct := (dispatch c d2 d1 d0 s).actPct
      actPctOk := (dispatch c d2 d1 d0 s).actPctOk
      suspended := (dispatch c d2 d1 d0 s).suspended
      fresh := (dispatch c d2 d1 d0 s).fresh
      out := (dispatch c d2 d1 d0 s).out
      errSticky := (dispatch c d2 d1 d0 s).errSticky } := by
  obtain ⟨cls, letter, pct, h, -⟩ | ⟨-, h⟩ := dispatch_eq c d2 d1 d0 s
  · rw [h]
    cases pct <;> rfl
  · rw [h]
    rfl

/-! ## Sticky errors and the suspension -/

/-- Every set bit of ERR_STICKY stays set, and so does the suspension (R38, R211). -/
def KeepsSticky (s t : State) : Prop :=
  t.errSticky &&& s.errSticky = s.errSticky ∧ (s.suspended = true → t.suspended = true)

/-- Neither register is written. -/
theorem KeepsSticky.of_eq {s t : State} (he : t.errSticky = s.errSticky)
    (hs : t.suspended = s.suspended) : KeepsSticky s t :=
  ⟨by rw [he, BitVec.and_self], fun h => hs.trans h⟩

/-- One more bit is set. -/
theorem KeepsSticky.of_or {s t : State} {b : BitVec 6} (he : t.errSticky = s.errSticky ||| b)
    (hs : t.suspended = s.suspended) : KeepsSticky s t := by
  refine ⟨BitVec.eq_of_getLsbD_eq fun j _ => ?_, fun h => hs.trans h⟩
  rw [he, BitVec.getLsbD_and, BitVec.getLsbD_or]
  cases s.errSticky.getLsbD j <;> simp

theorem keepsSticky_dispatch (c d2 d1 d0 : Byte) (s : State) :
    KeepsSticky s (dispatch c d2 d1 d0 s) := by
  obtain ⟨cls, letter, pct, h, -⟩ | ⟨-, h⟩ := dispatch_eq c d2 d1 d0 s
  · rw [h, dispatchAct_eq]
    exact ⟨BitVec.and_self, fun hs => by simp [hs]⟩
  · rw [h]
    exact .of_or rfl rfl

theorem UnitEffect.keepsSticky {s u : State} (h : UnitEffect s u) : KeepsSticky s u := by
  cases h with
  | raise e => exact .of_or rfl rfl
  | command c d2 d1 d0 => exact keepsSticky_dispatch c d2 d1 d0 s
  | cmdTake => exact keepsSticky_dispatch _ _ _ _ (cmdCopy _ _ _ _ s)
  | lcNotReady => exact .of_or rfl rfl
  | _ => exact .of_eq rfl rfl

theorem keepsSticky_htFailed (st : HtStatus) (e : ErrorCause) (s : State) :
    KeepsSticky s (htFailed st e s) := by
  rw [htFailed, htHook_eq]
  exact .of_or rfl rfl

theorem HtStepEffect.keepsSticky {l : Level} {s t : State} (h : HtStepEffect l s t) :
    KeepsSticky s t := by
  cases h with
  | valid =>
    rw [htSuccess, htHook_eq]
    exact .of_eq rfl rfl
  | invalid => exact keepsSticky_htFailed _ _ { s with htTo := 0 }
  | timeout => exact keepsSticky_htFailed _ _ { s with htTo := bump s.cfg.htTo s.htTo }
  | _ => exact .of_eq rfl rfl

/-- Settles O56: an effect of the units leaves both registers, sets one more bit, or suspends. -/
theorem stickyBitsAreClearedOnlyByReset : Obligations.StickyBitsAreClearedOnlyByReset := by
  intro i s t hi h
  obtain ⟨hr, -⟩ | ⟨l, -, hl⟩ | ⟨u, _, _, _, _, hu, rfl⟩ := exec_next h
  · exact absurd hr hi
  · exact hl.keepsSticky
  · exact hu.keepsSticky

/-! ## HT_FRAME -/

theorem UnitEffect.htFrame {s u : State} (h : UnitEffect s u) : u.htFrame = s.htFrame := by
  cases h with
  | command => rw [dispatch_frame]
  | cmdTake => rw [dispatch_frame]; rfl
  | _ => rfl

theorem htFailed_htFrame (st : HtStatus) (e : ErrorCause) (s : State) :
    (htFailed st e s).htFrame = s.htFrame := by
  rw [htFailed, htHook_eq]
  rfl

theorem htSuccess_htFrame (s : State) : (htSuccess s).htFrame = s.htShreg := by
  rw [htSuccess, htHook_eq]

/-- HT.STEP leaves HT_FRAME but where the level 0 ends a frame of 40 bits with a right checksum (R137). -/
theorem HtStepEffect.htFrame {l : Level} {s t : State} (h : HtStepEffect l s t) :
    t.htFrame = s.htFrame ∨
    (l = 0 ∧ s.htState = .bwl ∧ s.htBitidx = 40 ∧ checksumOk s.htShreg = true ∧
      t.htFrame = s.htShreg) := by
  cases h with
  | valid target bwl last sum =>
    have hl : l = 0 := by
      rw [bwl] at target
      cases target
      rfl
    exact .inr ⟨hl, bwl, last, sum, htSuccess_htFrame _⟩
  | invalid => exact .inl (htFailed_htFrame _ _ _)
  | timeout => exact .inl (htFailed_htFrame _ _ _)
  | _ => exact .inl rfl

/-- Settles O28: no effect of the other units writes the register. -/
theorem htFrameIsWrittenOnlyBySuccess : Obligations.HtFrameIsWrittenOnlyBySuccess := by
  intro i s t h hne
  obtain ⟨hr, -⟩ | ⟨l, rfl, hl⟩ | ⟨u, _, _, _, _, hu, rfl⟩ := exec_next h
  · exact .inl hr
  · obtain ⟨rfl, hwrite⟩ := hl.htFrame.resolve_left hne
    exact .inr ⟨rfl, hwrite⟩
  · exact absurd hu.htFrame hne

/-! ## The invariant: facts about its parts -/

/-- What R7 demands of the parameters the units count against or take as a gain. -/
theorem legal_limits {c : Config} (h : c.legal = true) :
    c.lcTimeout ≠ some 0 ∧ 0 < c.htTo ∧ gainLegal c.pollGain = true := by
  simp only [Config.legal, Bool.and_eq_true, decide_eq_true_eq] at h
  tauto

/-- A frame has at least the characters of its load field (R7, R177). -/
theorem frameW_pos {c : Config} (h : c.legal = true) : 0 < c.frameW := by
  have hload : Field.load ∈ c.layout := by
    simp only [Config.legal, Config.layoutLegal, Bool.and_eq_true, decide_eq_true_eq] at h
    exact List.count_pos_iff.mp (by omega)
  have : c.fieldWidth .load ≤ c.frameW :=
    List.single_le_sum (by simp) _ (List.mem_map_of_mem hload)
  exact Nat.lt_of_lt_of_le (show 0 < loadW by decide) this

theorem renderFields_length (s : State) (fs : List Field) :
    ∀ err, (renderFields s err fs).length = (fs.map s.cfg.fieldWidth).sum := by
  induction fs with
  | nil => intro err; rfl
  | cons f fs ih => intro err; simp [renderFields, fieldBytes_length, ih]

theorem telemetryFrame_length (s : State) : (telemetryFrame s).length = s.cfg.frameW :=
  renderFields_length s _ _

theorem gainLegal_bounds {g : BitVec 5} (h : gainLegal g = true) : 24 < g ∧ g < 28 := by
  revert g
  decide

theorem parsePct_le {d2 d1 d0 : Byte} {p : BitVec 7} (h : parsePct d2 d1 d0 = some p) : p ≤ 100 := by
  unfold parsePct at h
  dsimp only at h
  split at h
  · split at h
    next hle =>
      cases h
      rw [pctMax] at hle
      rw [BitVec.le_def, BitVec.toNat_ofNat]
      exact (Nat.mod_le _ _).trans hle
    · cases h
  · cases h

/-! ## The command receiver -/

/-- A valid percentage is at most 100 and belongs to a setpoint (R35, R209). -/
def PctInv (s : State) : Prop := s.actPctOk = true → s.actPct ≤ 100 ∧ s.actClass = .setpoint

theorem pctInv_setpoint (letter d2 d1 d0 : Byte) (s : State) :
    PctInv (dispatchAct .setpoint letter (parsePct d2 d1 d0) s) := by
  cases hp : parsePct d2 d1 d0 with
  | none => intro h; cases h
  | some p => exact fun _ => ⟨parsePct_le hp, rfl⟩

theorem pctInv_noPct (cls : ActClass) (letter : Byte) (s : State) :
    PctInv (dispatchAct cls letter none s) := by
  intro h
  cases h

/-- The commands with a percentage are the setpoints; the others have none (R206 to R215). -/
theorem pctInv_dispatch {s : State} (h : PctInv s) (c d2 d1 d0 : Byte) :
    PctInv (dispatch c d2 d1 d0 s) := by
  unfold dispatch
  repeat' split
  · exact pctInv_noPct .halt 0x51 s
  · exact pctInv_noPct .stop 0x53 s
  · exact pctInv_setpoint 0x46 d2 d1 d0 s
  · exact pctInv_setpoint 0x52 d2 d1 d0 s
  · exact pctInv_setpoint 0x47 d2 d1 d0 s
  · exact pctInv_noPct .sprayOn 0x4D s
  · exact pctInv_noPct .sprayOff 0x4E s
  · exact h

theorem safInv_dispatch {s : State} (hs : SafInv s) (c d2 d1 d0 : Byte) :
    SafInv (dispatch c d2 d1 d0 s) := by
  obtain ⟨shape, lc, ht, seq, tx, index, below, eof, noCmd, pct⟩ := hs
  have hpct := pctInv_dispatch pct c d2 d1 d0
  rw [dispatch_frame]
  exact ⟨shape, lc, ht, seq, tx, index, below, eof, noCmd, hpct⟩

theorem safInv_cmdCopy {s : State} (hs : SafInv s) (c d2 d1 d0 : Byte) :
    SafInv (cmdCopy c d2 d1 d0 s) := by
  obtain ⟨⟨legal, rxWf, holdWf, txWf⟩, lc, ht, seq, tx, index, below, -, noCmd, pct⟩ := hs
  have hwf : Memory.wf cmdLen (Memory.writeBlock 0 [c, d2, d1, d0] s.cmdHold) = true :=
    Memory.writeBlock_wf _ (Nat.le_refl 4) holdWf
  exact ⟨⟨legal, rxWf, hwf, txWf⟩, lc, ht, seq, tx, index, below, nofun, noCmd, pct⟩

/-- The byte stored is no command character but at index 0, and the index advances past it (R200, R201). -/
theorem rxInv_rxByte {b : Byte} {s : State} (hs : RxInv s) (inside : (rxStoreIdx b s).toNat < cmdLen) :
    RxInv { s with
      rxBuf := Memory.write (rxStoreIdx b s).toNat b s.rxBuf
      rxIdx := if rxStoreIdx b s + 1 = 4 then 0 else rxStoreIdx b s + 1
      rxEof := if rxStoreIdx b s + 1 = 4 then true else s.rxEof } := by
  obtain ⟨index, below, eof, noCmd, pct⟩ := hs
  have hbelow : s.rxBuf.writtenBelow (rxStoreIdx b s).toNat = true := by
    unfold rxStoreIdx
    split
    · rfl
    · exact below
  have hnext := Memory.writtenBelow_write_next (b := b) hbelow
  have hnoCmd : ∀ c ∈ Memory.write (rxStoreIdx b s).toNat b s.rxBuf, c.1 ≠ 0 → inCmdSet c.2 = false := by
    intro c hc h0
    rcases Memory.mem_write hc with rfl | hc
    · by_contra hcmd
      exact h0 (by simp [rxStoreIdx, hcmd])
    · exact noCmd c hc h0
  generalize rxStoreIdx b s = i at *
  have hi : i.toNat < 4 := inside
  by_cases hlast : i + 1 = 4
  · have h3 : i.toNat + 1 = cmdLen := by unfold cmdLen; bv_omega
    rw [h3] at hnext
    simp only [hlast, if_true]
    exact ⟨show (0 : BitVec 3) < 4 by decide, rfl, fun _ => hnext, hnoCmd, pct⟩
  · have hsucc : (i + 1).toNat = i.toNat + 1 := by bv_omega
    simp only [hlast, if_false]
    exact ⟨by bv_omega, hsucc ▸ hnext, fun h => Memory.writtenBelow_write (eof h), hnoCmd, pct⟩

theorem safInv_rxByte {b : Byte} {s : State} (hs : SafInv s)
    (inside : (rxStoreIdx b s).toNat < cmdLen) :
    SafInv { s with
      rxBuf := Memory.write (rxStoreIdx b s).toNat b s.rxBuf
      rxIdx := if rxStoreIdx b s + 1 = 4 then 0 else rxStoreIdx b s + 1
      rxEof := if rxStoreIdx b s + 1 = 4 then true else s.rxEof } := by
  obtain ⟨⟨legal, rxWf, holdWf, txWf⟩, lc, ht, seq, tx, rx⟩ := hs
  exact ⟨⟨legal, Memory.write_wf b inside rxWf, holdWf, txWf⟩, lc, ht, seq, tx,
    rxInv_rxByte rx inside⟩

/-! ## The formatter and its streamer -/

theorem safInv_fmtEncEffect {s : State} (hs : SafInv s) : SafInv (fmtEncEffect s) := by
  obtain ⟨⟨legal, rxWf, holdWf, txWf⟩, lc, ht, seq, -, rx⟩ := hs
  obtain ⟨bits, count, reading, idle, hold, armed, ack, high, low, once, awake, -⟩ := ht
  have hlen := telemetryFrame_length s
  have hwf : Memory.wf s.cfg.frameW (Memory.writeBlock 0 (telemetryFrame s) s.txBuf) = true :=
    Memory.writeBlock_wf _ (by omega) txWf
  have hwhole := Memory.writtenBelow_writeBlock (telemetryFrame s) s.txBuf
  rw [hlen] at hwhole
  exact ⟨⟨legal, rxWf, holdWf, hwf⟩, lc,
    ⟨bits, count, reading, idle, hold, armed, ack, high, low, once, awake, nofun⟩, seq,
    ⟨Nat.zero_le _, fun _ => ⟨frameW_pos legal, hwhole⟩⟩, rx⟩

theorem safInv_txPop {s : State} (hs : SafInv s) (b : Byte) (busy : s.txBusy = true) :
    SafInv { s.emit (.txByte b) with
      txIdx := bump s.cfg.frameW s.txIdx
      txBusy := decide (s.txIdx + 1 ≠ s.cfg.frameW) } := by
  obtain ⟨shape, lc, ht, seq, ⟨-, stream⟩, rx⟩ := hs
  obtain ⟨hidx, hwhole⟩ := stream busy
  rw [bump_of_lt hidx]
  refine ⟨shape, lc, ht, seq, ⟨hidx, fun h => ⟨?_, hwhole⟩⟩, rx⟩
  have hmore : s.txIdx + 1 ≠ s.cfg.frameW := by simpa using h
  exact Nat.lt_of_le_of_ne hidx hmore

/-! ## The load-cell serializer -/

theorem safInv_lcReadEffect {g : BitVec 5} {s : State} (hs : SafInv s)
    (hg : gainLegal g = true ∨ g = s.cfg.pollGain) (free : unitBusy s = false) :
    SafInv (lcReadEffect g s) := by
  obtain ⟨shape, ⟨sck, -⟩, ht, ⟨-, sampling, counters⟩, tx, rx⟩ := hs
  obtain ⟨htimeout, -, hpoll⟩ := legal_limits shape.1
  have hgain : gainLegal g = true := hg.elim id fun e => e ▸ hpoll
  have hwait : s.cfg.lcTimeout.all
      (fun n => (if s.cfg.lcTimeout = none then s.lcWait else 0) < n) = true := by
    cases hl : s.cfg.lcTimeout with
    | none => rfl
    | some n =>
      have : n ≠ 0 := fun e => htimeout (e ▸ hl)
      simp
      omega
  have off : ¬ s.htState.reading = true := by simp [(unitBusy_eq_false.mp free).2]
  exact ⟨shape, ⟨sck, fun _ => ⟨hgain, rfl⟩, nofun, fun _ => ⟨rfl, hwait⟩, nofun, nofun, nofun⟩, ht,
    ⟨fun h => absurd h off, sampling, counters⟩, tx, rx⟩

/-- While LCSER reads HTRX does not, so LCSER may change its state (R51). -/
theorem seqInv_lcState {s : State} (hs : SeqInv s) (busy : s.lcState ≠ .idle) (l : LcState) :
    SeqInv { s with lcState := l } :=
  ⟨fun h => absurd (hs.1 h) busy, hs.2⟩

theorem lcInv_lcReady {s : State} (hs : LcInv s) (wait : s.lcState = .wait) :
    LcInv { s with lcState := .shift } := by
  obtain ⟨sck, busy, -, waiting, -⟩ := hs
  obtain ⟨hgain, hvalid⟩ := busy (by simp [wait])
  exact ⟨sck, fun _ => ⟨hgain, hvalid⟩, nofun, nofun, fun _ => by simp [(waiting wait).1], nofun,
    fun h => by simp [hvalid] at h⟩

/-- The count of samples that are not ready stays below the limit until it reaches it (R103). -/
theorem lcInv_lcCounted {s : State} {limit : Nat} (hs : LcInv s) (wait : s.lcState = .wait)
    (finite : s.cfg.lcTimeout = some limit) (below : bump limit s.lcWait ≠ limit) :
    LcInv { s with lcWait := bump limit s.lcWait } := by
  obtain ⟨sck, busy, idle, waiting, shift, gain, valid⟩ := hs
  obtain ⟨hzero, hwait⟩ := waiting wait
  have hlt : s.lcWait < limit := by simpa [finite] using hwait
  have hnext : bump limit s.lcWait < limit := by
    rw [bump_of_lt hlt] at below ⊢
    omega
  exact ⟨sck, busy, idle, fun _ => ⟨hzero, by simpa [finite] using hnext⟩, shift, gain, valid⟩

theorem lcInv_lcNotReady {s : State} (n : Nat) (hs : LcInv s) (wait : s.lcState = .wait) :
    LcInv ({ s with lcWait := n, lcStatus := .notReady, lcState := .idle }.raise .sensorNotReady) := by
  obtain ⟨sck, busy, -, waiting, -⟩ := hs
  obtain ⟨-, hvalid⟩ := busy (by simp [wait])
  exact ⟨sck, nofun, fun _ => .inl (waiting wait).1, nofun, nofun, nofun,
    fun h => by simp [hvalid] at h⟩

/-- The 24th pulse ends the shifting; a legal gain has more pulses than that (R100, R104). -/
theorem lcInv_lcStepShift {s : State} (d : Level) (hs : LcInv s) (shift : s.lcState = .shift) :
    LcInv (lcStepShift d s) := by
  obtain ⟨-, busy, -, -, shifting, -⟩ := hs
  obtain ⟨hgain, hvalid⟩ := busy (by simp [shift])
  have hlt := shifting shift
  have hbounds := gainLegal_bounds hgain
  have noSample : ¬ s.lcValid = true := by simp [hvalid]
  unfold lcStepShift
  by_cases hlast : s.lcBitcnt + 1 = 24
  · have hmore : 24 < s.lcGain := hbounds.1
    simp only [hlast, if_true]
    exact ⟨rfl, fun _ => ⟨hgain, hvalid⟩, nofun, nofun, nofun,
      fun _ => by simp only [lcPulse_lcBitcnt, lcPulse_lcGain, hlast]; exact ⟨by decide, hmore⟩,
      fun h => absurd h noSample⟩
  · have hnext : s.lcBitcnt + 1 < 24 := by bv_omega
    simp only [hlast, if_false]
    exact ⟨rfl, fun _ => ⟨hgain, hvalid⟩, nofun, nofun, fun _ => hnext, nofun,
      fun h => absurd h noSample⟩

/-- In LC_GAIN the pulse count stays below the latched gain until it reaches it (R105). -/
theorem lcInv_lcPulse {s : State} (hs : LcInv s) (gain : s.lcState = .gain)
    (more : s.lcBitcnt + 1 ≠ s.lcGain) : LcInv (lcPulse s) := by
  obtain ⟨-, busy, -, -, -, inGain, valid⟩ := hs
  obtain ⟨hgain, hvalid⟩ := busy (by simp [gain])
  obtain ⟨hge, hlt⟩ := inGain gain
  have hnext : 24 ≤ s.lcBitcnt + 1 ∧ s.lcBitcnt + 1 < s.lcGain := by
    constructor <;> bv_omega
  refine ⟨rfl, busy, ?_, ?_, ?_, fun _ => hnext, ?_⟩
  all_goals simp [gain, hvalid]

theorem lcInv_lcComplete {s : State} (hs : LcInv s) (gain : s.lcState = .gain)
    (last : s.lcBitcnt + 1 = s.lcGain) : LcInv (lcComplete (lcPulse s)) := by
  obtain ⟨hgain, -⟩ := hs.2.1 (by simp [gain])
  have hbits : gainLegal (s.lcBitcnt + 1) = true := last ▸ hgain
  exact ⟨rfl, nofun, fun _ => .inr hbits, nofun, nofun, nofun,
    fun _ => ⟨rfl, rfl, hgain, rfl, last⟩⟩

/-! ## The humidity receiver -/

theorem legal_htTo_pos {c : Config} (h : c.legal = true) : 0 < c.htTo := (legal_limits h).2.1

/-- No wake sequence is pending while a read runs (R128). -/
theorem asleep_of_reading {s : State} (ht : HtInv s) (reading : s.htState.reading = true) :
    s.wakeArmed = false ∧ s.wakeFired = false := by
  obtain ⟨-, -, -, -, -, -, -, -, -, -, awake, -⟩ := ht
  rw [← Bool.not_eq_true, ← Bool.not_eq_true, ← not_or]
  intro h
  rcases awake h with h | h <;> simp [h, HtState.reading] at reading

/-- What the invariant of HTRX asks in a reading state. -/
theorem htInv_of_reading {t : State} (reading : t.htState.reading = true) (dir : t.htDir = 0)
    (bits : t.htBitidx ≤ 40) (count : t.htTo < t.cfg.htTo)
    (asleep : t.wakeArmed = false ∧ t.wakeFired = false)
    (ack : t.htState = .w1 ∨ t.htState = .w2 ∨ t.htState = .w3 → t.htBitidx = 0)
    (high : t.htState = .bwh ∨ t.htState = .bsmp → t.htBitidx < 40)
    (low : t.htState = .bwl → 0 < t.htBitidx)
    (new : t.htNew = true → checksumOk t.htFrame = true ∧ t.htFail = false) : HtInv t := by
  refine ⟨bits, Nat.le_of_lt count, fun _ => ⟨count, dir⟩, ?_, ?_, fun _ => dir, ack, high, low,
    fun _ => asleep.2, ?_, new⟩
  · intro h; simp [h, HtState.reading] at reading
  · intro h; simp [h, HtState.reading] at reading
  · simp [asleep]

/-- What the invariant of HTRX asks with the receiver and the line idle. -/
theorem htInv_of_idle {t : State} (idle : t.htState = .idle) (line : t.htDir = 1 ∧ t.htOut = 1)
    (bits : t.htBitidx ≤ 40) (count : t.htTo ≤ t.cfg.htTo)
    (asleep : t.wakeArmed = false ∧ t.wakeFired = false)
    (new : t.htNew = true → checksumOk t.htFrame = true ∧ t.htFail = false) : HtInv t := by
  refine ⟨bits, count, ?_, fun _ => line, ?_, ?_, ?_, ?_, ?_, fun _ => asleep.2, ?_, new⟩
  all_goals simp [idle, HtState.reading, asleep]

/-- SEQ may go to another state: Sampling while a read runs, WaitingRest with the rest not over (R154). -/
theorem safInv_thState {s : State} {th : ThState} (hs : SafInv s)
    (sampling : th = .sampling → s.htState.reading = true)
    (resting : th = .waitingRest → s.restCnt < s.cfg.nRest) : SafInv { s with thState := th } := by
  obtain ⟨shape, lc, ht, ⟨blocking, -, cad, rest, -⟩, tx, rx⟩ := hs
  exact ⟨shape, lc, ht, ⟨blocking, sampling, cad, rest, resting⟩, tx, rx⟩

/-- Outside a read SEQ is not Sampling, so HTRX may go to another state that does not read. -/
theorem seqInv_htState_off {s : State} (hs : SeqInv s) (off : s.htState.reading = false) {h : HtState}
    (hoff : h.reading = false) : SeqInv { s with htState := h } := by
  obtain ⟨-, sampling, counters⟩ := hs
  refine ⟨fun hr => ?_, fun hth => ?_, counters⟩
  · exact absurd hr (by simp [hoff])
  · exact absurd (sampling hth) (by simp [off])

theorem safInv_htStartEffect {s : State} (hs : SafInv s) (idle : s.htState = .idle) :
    SafInv (htStartEffect s) := by
  obtain ⟨shape, lc, ht, seq, tx, rx⟩ := hs
  obtain ⟨bits, count, -, -, -, -, -, -, -, -, -, new⟩ := ht
  have hht : HtInv (htStartEffect s) := by
    refine ⟨bits, count, nofun, nofun, fun _ => ⟨rfl, rfl⟩, nofun, ?_, ?_, nofun, fun _ => rfl,
      fun _ => .inl rfl, new⟩
    all_goals simp [htStartEffect]
  exact ⟨shape, lc, hht, seqInv_htState_off seq (by rw [idle]; rfl) (h := .hold) rfl, tx, rx⟩

theorem safInv_htRelease {s : State} (hs : SafInv s) (hold : s.htState = .hold) :
    SafInv { s with htDir := 0, htState := .armed } := by
  obtain ⟨shape, lc, ht, seq, tx, rx⟩ := hs
  obtain ⟨bits, count, -, -, -, -, -, -, -, once, -, new⟩ := ht
  have hht : HtInv { s with htDir := 0, htState := .armed } := by
    refine ⟨bits, count, nofun, nofun, nofun, fun _ => rfl, ?_, ?_, nofun, once,
      fun _ => .inr rfl, new⟩
    all_goals simp
  exact ⟨shape, lc, hht, seqInv_htState_off seq (by rw [hold]; rfl) (h := .armed) rfl, tx, rx⟩

theorem safInv_wakeFire {s : State} (hs : SafInv s) (armed : s.wakeArmed = true) :
    SafInv { s with wakeArmed := false, wakeFired := true } := by
  obtain ⟨shape, lc, ht, seq, tx, rx⟩ := hs
  obtain ⟨bits, count, reading, idle, hold, released, ack, high, low, -, awake, new⟩ := ht
  exact ⟨shape, lc, ⟨bits, count, reading, idle, hold, released, ack, high, low, nofun,
    fun _ => awake (.inl armed), new⟩, seq, tx, rx⟩

theorem safInv_htReadEffect {s : State} (hs : SafInv s) (ready : htReadReady s = true)
    (free : unitBusy s = false) : SafInv (htReadEffect s) := by
  obtain ⟨shape, lc, ht, ⟨-, -, counters⟩, tx, rx⟩ := hs
  obtain ⟨-, -, -, -, -, -, -, -, -, once, -, new⟩ := ht
  have hfired : s.wakeFired = true := by
    simp only [htReadReady, Bool.and_eq_true] at ready
    exact ready.1
  have harmed : s.wakeArmed = false := by
    by_contra h
    simp [once (by simpa using h)] at hfired
  have hht : HtInv (htReadEffect s) :=
    htInv_of_reading rfl rfl (show (0 : BitVec 6) ≤ 40 by decide) (legal_htTo_pos shape.1)
      ⟨harmed, rfl⟩ (fun _ => rfl) (fun _ => show (0 : BitVec 6) < 40 by decide) nofun new
  exact ⟨shape, lc, hht, ⟨fun _ => (unitBusy_eq_false.mp free).1, fun _ => rfl, counters⟩, tx, rx⟩

theorem reading_of_htTarget {h : HtState} {l : Level} (target : htTarget h = some l) :
    h.reading = true := by
  cases h with
  | idle | hold | armed | bsmp => cases target
  | _ => rfl

/-- A wait goes on with its count of misses below the limit (R130). -/
theorem safInv_htTo {s : State} {n : Nat} (hs : SafInv s) (reading : s.htState.reading = true)
    (hn : n < s.cfg.htTo) : SafInv { s with htTo := n } := by
  obtain ⟨shape, lc, ht, seq, tx, rx⟩ := hs
  have asleep := asleep_of_reading ht reading
  obtain ⟨bits, -, line, -, -, -, ack, high, low, -, -, new⟩ := ht
  exact ⟨shape, lc, htInv_of_reading reading (line reading).2 bits hn asleep ack high low new, seq,
    tx, rx⟩

theorem reading_htNext {h : HtState} (reading : h.reading = true) : (htNext h).reading = true := by
  cases h with
  | idle | hold | armed => cases reading
  | _ => rfl

/-- The bit count fits the state after a wait (R129). -/
theorem htInv_hit {s : State} (ht : HtInv s) (hto : 0 < s.cfg.htTo)
    (reading : s.htState.reading = true) (more : ¬(s.htState = .bwl ∧ s.htBitidx = 40)) :
    HtInv { s with htTo := 0, htState := htNext s.htState } := by
  have asleep := asleep_of_reading ht reading
  obtain ⟨bits, -, line, -, -, -, ack, high, -, -, -, new⟩ := ht
  have hdir := (line reading).2
  refine htInv_of_reading (reading_htNext reading) hdir bits hto asleep ?ack ?high ?low new
  all_goals
    simp only
    cases hst : s.htState <;> simp [hst, htNext, HtState.reading] at reading ack high more ⊢
  case ack.w1 | ack.w2 => exact ack
  case high.w3 => simp [ack]
  case high.bwh | high.bsmp => exact high
  case high.bwl => bv_omega

theorem safInv_hit {s : State} (hs : SafInv s) (reading : s.htState.reading = true)
    (more : ¬(s.htState = .bwl ∧ s.htBitidx = 40)) :
    SafInv { s with htTo := 0, htState := htNext s.htState } := by
  obtain ⟨shape, lc, ht, ⟨blocking, -, counters⟩, tx, rx⟩ := hs
  have hht := htInv_hit ht (legal_htTo_pos shape.1) reading more
  exact ⟨shape, lc, hht, ⟨fun _ => blocking reading, fun _ => reading_htNext reading, counters⟩, tx,
    rx⟩

theorem safInv_htSample {s : State} (l : Level) (hs : SafInv s) (bit : s.htState = .bsmp) :
    SafInv (htSample l s) := by
  obtain ⟨shape, lc, ht, ⟨blocking, -, counters⟩, tx, rx⟩ := hs
  have reading : s.htState.reading = true := by rw [bit]; rfl
  have asleep := asleep_of_reading ht reading
  obtain ⟨-, -, line, -, -, -, -, high, -, -, -, new⟩ := ht
  have hbits : s.htBitidx < 40 := high (.inr bit)
  have hnext : s.htBitidx + 1 ≤ 40 ∧ 0 < s.htBitidx + 1 := by constructor <;> bv_omega
  have hht : HtInv (htSample l s) :=
    htInv_of_reading rfl (line reading).2 hnext.1 (legal_htTo_pos shape.1) asleep
      (by simp [htSample]) (by simp [htSample]) (fun _ => hnext.2) new
  exact ⟨shape, lc, hht, ⟨fun _ => blocking reading, fun _ => rfl, counters⟩, tx, rx⟩

/-- At the end of a read the hook takes SEQ out of Sampling (R139). -/
theorem seqInv_htHook {s : State} (off : s.htState.reading = false) (hrest : 0 < s.cfg.nRest)
    (counters : s.cadCnt < s.cfg.cadThresh ∧ s.restCnt ≤ s.cfg.nRest ∧
      (s.thState = .waitingRest → s.restCnt < s.cfg.nRest)) : SeqInv (htHook s) := by
  have hoff : ¬ s.htState.reading = true := by simp [off]
  unfold htHook
  split
  · exact ⟨fun h => absurd h hoff, nofun, counters.1, Nat.zero_le _, fun _ => hrest⟩
  next hth => exact ⟨fun h => absurd h hoff, fun h => absurd h hth, counters⟩

/-- A read ends with the receiver and the line idle, whatever the count of misses (R131, R137, R138). -/
theorem safInv_htHook {s t : State} {n : Nat} (hs : SafInv s) (reading : s.htState.reading = true)
    (hn : n ≤ s.cfg.htTo) (ht : t = { htIdleLine s with
      htTo := n, htFrame := t.htFrame, htStatus := t.htStatus, htNew := t.htNew, htFail := t.htFail,
      errSticky := t.errSticky, out := t.out })
    (new : t.htNew = true → checksumOk t.htFrame = true ∧ t.htFail = false) : SafInv (htHook t) := by
  obtain ⟨shape, lc, hht, ⟨-, -, counters⟩, tx, rx⟩ := hs
  have asleep := asleep_of_reading hht reading
  have hidle : HtInv t := by
    rw [ht] at new ⊢
    exact htInv_of_idle rfl ⟨rfl, rfl⟩ hht.1 hn asleep new
  have hseq : SeqInv (htHook t) := by
    rw [ht]
    exact seqInv_htHook rfl (legal_thresholds_pos shape.1).2 counters
  rw [htHook_eq] at hseq ⊢
  rw [ht] at hidle hseq ⊢
  exact ⟨shape, lc, hidle, hseq, tx, rx⟩

theorem HtStepEffect.safInv {l : Level} {s t : State} (h : HtStepEffect l s t) (hs : SafInv s) :
    SafInv t := by
  have ⟨_, _, ⟨_, _, line, _⟩, _⟩ := hs
  cases h with
  | stay => exact hs
  | sample bit => exact safInv_htSample l hs bit
  | hit target more => exact safInv_hit hs (reading_of_htTarget target) more
  | valid target bwl last sum =>
    exact safInv_htHook hs (reading_of_htTarget target) (Nat.zero_le _) rfl fun _ => ⟨sum, rfl⟩
  | invalid bwl =>
    exact safInv_htHook hs (by rw [bwl]; rfl) (Nat.zero_le _) rfl nofun
  | miss target below =>
    have reading := reading_of_htTarget target
    have hlt : s.htTo < s.cfg.htTo := (line reading).1
    rw [bump_of_lt hlt]
    exact safInv_htTo hs reading (by omega)
  | timeout target reached =>
    rw [bump_of_succ_eq reached]
    exact safInv_htHook hs (reading_of_htTarget target) (Nat.le_refl _) rfl nofun

/-! ## The sequencer -/

theorem safInv_seqRest {s : State} (hs : SafInv s) (rest : s.thState = .waitingRest) :
    SafInv { s with
      restCnt := bump s.cfg.nRest s.restCnt
      thState := if s.restCnt + 1 = s.cfg.nRest then .awaitingWake else .waitingRest } := by
  obtain ⟨shape, lc, ht, ⟨blocking, -, cad, -, resting⟩, tx, rx⟩ := hs
  have hlt := resting rest
  rw [bump_of_lt hlt]
  refine ⟨shape, lc, ht, ⟨blocking, ?_, cad, hlt, ?_⟩, tx, rx⟩
  · simp only
    split <;> nofun
  · simp only
    split
    · nofun
    · intro; omega

theorem safInv_cadCnt {s : State} {n : Nat} (hs : SafInv s) (hn : n < s.cfg.cadThresh) :
    SafInv { s with cadCnt := n } := by
  obtain ⟨shape, lc, ht, ⟨blocking, sampling, -, rest⟩, tx, rx⟩ := hs
  exact ⟨shape, lc, ht, ⟨blocking, sampling, hn, rest⟩, tx, rx⟩

/-! ## Every step -/

/-- LCSER's invariant and the order of the two reads are all that a step of LCSER can break. -/
theorem safInv_lcser {s t : State} (hs : SafInv s) (busy : s.lcState ≠ .idle) (lc : LcInv t)
    (ht : t = { s with
      lcRaw := t.lcRaw, lcNeg := t.lcNeg, lcMag := t.lcMag, lcGainUsed := t.lcGainUsed,
      lcValid := t.lcValid, lcStatus := t.lcStatus, lcState := t.lcState, lcShreg := t.lcShreg,
      lcBitcnt := t.lcBitcnt, lcWait := t.lcWait, lcSck := t.lcSck, errSticky := t.errSticky,
      out := t.out }) : SafInv t := by
  obtain ⟨shape, -, hht, seq, tx, rx⟩ := hs
  have hseq := seqInv_lcState seq busy t.lcState
  rw [ht] at lc ⊢
  exact ⟨shape, lc, hht, hseq, tx, rx⟩

theorem UnitEffect.safInv {s u : State} (h : UnitEffect s u) (hs : SafInv s) : SafInv u := by
  have ⟨shape, lc, _, ⟨_, _, cad, _⟩, _⟩ := hs
  cases h with
  | stay => exact hs
  | raise e => exact hs
  | lcRead hg free => exact safInv_lcReadEffect hs hg free
  | htStart idle => exact safInv_htStartEffect hs idle
  | seqStart idle => exact safInv_thState (safInv_htStartEffect hs idle) nofun nofun
  | htRead ready free => exact safInv_htReadEffect hs ready free
  | seqRead ready free =>
    exact safInv_thState (safInv_htReadEffect hs ready free) (fun _ => rfl) nofun
  | seqRest rest => exact safInv_seqRest hs rest
  | fmtEnc => exact safInv_fmtEncEffect hs
  | command c d2 d1 d0 => exact safInv_dispatch hs c d2 d1 d0
  | cmdTake => exact safInv_dispatch (safInv_cmdCopy hs _ _ _ _) _ _ _ _
  | cadReached => exact safInv_cadCnt hs (legal_thresholds_pos shape.1).1
  | cadCounted below =>
    rw [bump_of_lt cad]
    exact safInv_cadCnt hs (by omega)
  | rxByte inside => exact safInv_rxByte hs inside
  | txPop busy => exact safInv_txPop hs _ busy
  | wakeFire armed => exact safInv_wakeFire hs armed
  | htRelease hold => exact safInv_htRelease hs hold
  | lcReady wait => exact safInv_lcser hs (by simp [wait]) (lcInv_lcReady lc wait) rfl
  | lcCounted wait finite below =>
    exact safInv_lcser hs (by simp [wait]) (lcInv_lcCounted lc wait finite below) rfl
  | lcNotReady wait => exact safInv_lcser hs (by simp [wait]) (lcInv_lcNotReady _ lc wait) rfl
  | lcShift d shift => exact safInv_lcser hs (by simp [shift]) (lcInv_lcStepShift d lc shift) rfl
  | lcGain gain more => exact safInv_lcser hs (by simp [gain]) (lcInv_lcPulse lc gain more) rfl
  | lcDone gain last => exact safInv_lcser hs (by simp [gain]) (lcInv_lcComplete lc gain last) rfl

/-- RESET gives the invariant back whatever the free values are (R250). -/
theorem safInv_resetEffect {s : State} (legal : s.cfg.legal = true) : SafInv (resetEffect s) := by
  obtain ⟨shape, -, -, seq, tx, -⟩ := safInv_resetWith legal
  have lc : LcInv (resetEffect s) := by simp [LcInv, resetEffect, State.resetWith]
  have ht : HtInv (resetEffect s) := by simp [HtInv, resetEffect, State.resetWith, HtState.reading]
  have rx : RxInv (resetEffect s) := by
    simp [RxInv, resetEffect, State.resetWith, Memory.writtenBelow]
  exact ⟨shape, lc, ht, seq, tx, rx⟩

/-- Every instruction keeps the invariant. -/
theorem safInv_exec {i : Instr} {s t : State} (hs : SafInv s) (h : exec i s = .next t) : SafInv t := by
  obtain ⟨-, rfl⟩ | ⟨l, -, hl⟩ | ⟨u, _, _, _, _, hu, rfl⟩ := exec_next h
  · exact safInv_resetEffect hs.1.1
  · exact hl.safInv hs
  · exact hu.safInv hs

/-- Taking a stimulus changes the schedule and the held words only, which the invariant does not read. -/
theorem safInv_fetch {s u : State} {x : Stimulus} (hs : SafInv s) (h : fetch s = some (x, u)) :
    SafInv u := by
  obtain ⟨w, ws, -, -, -, rfl⟩ | ⟨xs, -, -, rfl⟩ := fetch_some h
  · exact hs
  · exact hs

/-- Settles O53: a step takes a stimulus and runs its instruction, or brings a reserved word to the port. -/
theorem stepKeepsTheInvariant : Obligations.StepKeepsTheInvariant := by
  intro s t hs h
  obtain ⟨-, rfl⟩ | ⟨x, u, i, hf, -, hx⟩ | ⟨w, u, hf, -, hw⟩ := step_next h
  · exact hs
  · exact safInv_exec (safInv_fetch hs hf) hx
  · have hu := safInv_fetch hs hf
    obtain ⟨v, _, _, _, _, hv, rfl⟩ := mainEffect_of_atPort (fun _ _ h => by cases h) hw
    exact hv.safInv hu

/-! ## No step stops -/

theorem exists_atPort_next {w : OpWord} {take : State → Taken} {s : State}
    (h : ∀ f, take s ≠ .stopped f) : ∃ t, atPort w take s = .next t := by
  unfold atPort respond
  split
  · exact ⟨_, rfl⟩
  · split
    · exact ⟨_, rfl⟩
    · exact ⟨_, rfl⟩
    · exact absurd ‹_› (h _)

theorem exists_embed_next {s : State} {k : State → State} {r : Taken} (h : ∀ f, r ≠ .stopped f) :
    ∃ t, embed s k r = .next t := by
  cases r with
  | accepted t => exact ⟨_, rfl⟩
  | declined c e => exact ⟨_, rfl⟩
  | stopped f => exact absurd rfl (h f)

theorem lcReadTake_ne_stopped (g : BitVec 5) (s : State) (f : Fault) : lcReadTake g s ≠ .stopped f := by
  unfold lcReadTake
  split <;> nofun

theorem htStartTake_ne_stopped (s : State) (f : Fault) : htStartTake s ≠ .stopped f := by
  unfold htStartTake
  split <;> nofun

theorem htReadTake_ne_stopped (s : State) (f : Fault) : htReadTake s ≠ .stopped f := by
  unfold htReadTake
  split <;> nofun

theorem fmtEncTake_ne_stopped (s : State) (f : Fault) : fmtEncTake s ≠ .stopped f := by
  unfold fmtEncTake
  split <;> nofun

theorem seqStepTake_ne_stopped (s : State) (f : Fault) : seqStepTake s ≠ .stopped f := by
  obtain ⟨-, -, h⟩ | ⟨-, -, h⟩ | ⟨-, -, h⟩ | ⟨-, -, h⟩ | ⟨-, h⟩ | ⟨-, h⟩ := seqStepTake_cases s <;>
    rw [h] <;> nofun

/-- A written memory gives its frame (R60). -/
theorem exists_readFrame_ok {s : State} (h : s.rxBuf.writtenBelow cmdLen = true) :
    ∃ c d2 d1 d0, readFrame s = .ok (c, d2, d1, d0) := by
  rw [Memory.writtenBelow_iff] at h
  have hread : ∀ i < 4, ∃ b, s.rxBuf.read i = some b := fun i hi => Option.isSome_iff_exists.mp (h i hi)
  obtain ⟨c, hc⟩ := hread 0 (by omega)
  obtain ⟨d2, h2⟩ := hread 1 (by omega)
  obtain ⟨d1, h1⟩ := hread 2 (by omega)
  obtain ⟨d0, h0⟩ := hread 3 (by omega)
  exact ⟨c, d2, d1, d0, readFrame_ok.mpr ⟨hc, h2, h1, h0⟩⟩

/-- An ended frame is written whole, so CMD.TAKE reads it (R52, R205). -/
theorem cmdTakeTake_ne_stopped {s : State} (hs : RxInv s) (f : Fault) : cmdTakeTake s ≠ .stopped f := by
  obtain ⟨-, h⟩ | ⟨-, c, d2, d1, d0, -, h⟩ | ⟨he, f', hr, -⟩ := cmdTakeTake_cases s
  · rw [h]; nofun
  · rw [h]; nofun
  · obtain ⟨-, -, eof, -⟩ := hs
    obtain ⟨c, d2, d1, d0, hok⟩ := exists_readFrame_ok (eof he)
    cases hr.symm.trans hok

theorem exists_execRxByte_next {s : State} (b : Byte) (hs : RxInv s) :
    ∃ t, execRxByte b s = .next t := by
  have inside : (rxStoreIdx b s).toNat < cmdLen := by
    unfold rxStoreIdx
    split
    · decide
    · exact hs.1
  exact ⟨_, if_pos inside⟩

/-- The index of a streamed frame is inside it, and the frame is written whole (R52, R63). -/
theorem exists_execTxPop_next {s : State} (hs : TxInv s) : ∃ t, execTxPop s = .next t := by
  obtain ⟨-, stream⟩ := hs
  by_cases busy : s.txBusy = true
  · obtain ⟨hidx, whole⟩ := stream busy
    obtain ⟨b, hb⟩ := Option.isSome_iff_exists.mp (Memory.writtenBelow_iff.mp whole _ hidx)
    have hread : memRead .txBuf s.txIdx s = .ok b := memRead_ok.mpr ⟨hidx, hb⟩
    simp [execTxPop, busy, hread]
  · exact ⟨s, execTxPop_of_idle (by simpa using busy)⟩

theorem exists_execPollStep_next {s : State} (hs : RxInv s) : ∃ t, execPollStep s = .next t := by
  unfold execPollStep
  split
  · exact ⟨s, rfl⟩
  · split
    · exact ⟨s, rfl⟩
    · exact exists_embed_next (seqStepTake_ne_stopped s)
    · exact ⟨_, rfl⟩
    · split
      · exact exists_embed_next (fmtEncTake_ne_stopped s)
      · exact ⟨_, rfl⟩
    · split
      · exact exists_embed_next (cmdTakeTake_ne_stopped hs)
      · exact ⟨_, rfl⟩

theorem exists_execTick_next (s : State) : ∃ t, execTick s = .next t := by
  unfold execTick
  split <;> exact ⟨_, rfl⟩

theorem exists_execWakeFire_next (s : State) : ∃ t, execWakeFire s = .next t := by
  unfold execWakeFire
  split <;> exact ⟨_, rfl⟩

theorem exists_execHtRelease_next (s : State) : ∃ t, execHtRelease s = .next t := by
  unfold execHtRelease
  split <;> exact ⟨_, rfl⟩

theorem exists_execLcStep_next (d : Level) (s : State) : ∃ t, execLcStep d s = .next t := by
  unfold execLcStep
  split <;> exact ⟨_, rfl⟩

theorem exists_execHtStep_next (l : Level) (s : State) : ∃ t, execHtStep l s = .next t := by
  unfold execHtStep
  split
  · exact ⟨_, rfl⟩
  · split <;> exact ⟨_, rfl⟩

/-- In a state of the invariant every instruction answers a next state. -/
theorem exists_exec_next {s : State} (hs : SafInv s) (i : Instr) : ∃ t, exec i s = .next t := by
  obtain ⟨-, -, -, -, tx, rx⟩ := hs
  cases i with
  | lcRead g => exact exists_atPort_next (lcReadTake_ne_stopped g s)
  | htStart => exact exists_atPort_next (htStartTake_ne_stopped s)
  | htRead => exact exists_atPort_next (htReadTake_ne_stopped s)
  | fmtEnc => exact exists_atPort_next (fmtEncTake_ne_stopped s)
  | cmdTake => exact exists_atPort_next (cmdTakeTake_ne_stopped rx)
  | seqStep => exact exists_atPort_next (seqStepTake_ne_stopped s)
  | poll => exact exists_atPort_next (take := pollTake) nofun
  | tick => exact exists_execTick_next s
  | rxByte b => exact exists_execRxByte_next b rx
  | txPop => exact exists_execTxPop_next tx
  | wakeFire => exact exists_execWakeFire_next s
  | htRelease => exact exists_execHtRelease_next s
  | lcStep d => exact exists_execLcStep_next d s
  | htStep l => exact exists_execHtStep_next l s
  | pollStep => exact exists_execPollStep_next rx
  | reset | cmdQ | cmdS | cmdF | cmdR | cmdG | cmdM | cmdN => exact ⟨_, rfl⟩

/-- Only a request can fail to decode: an event has no word (R85). -/
theorem eq_request_of_decode_error {x : Stimulus} {e : DecodeError}
    (h : decode (.stimulus x) = .error e) : ∃ w, x = .request w := by
  cases x with
  | request w => exact ⟨w, rfl⟩
  | _ => cases h

/-- Settles O55: the instruction of the next stimulus meets no fault, and a reserved word is refused. -/
theorem invariantStatesNeverStop : Obligations.InvariantStatesNeverStop := by
  intro s hs
  cases hf : fetch s with
  | none => exact ⟨s, step_of_fetch_none hf⟩
  | some p =>
    obtain ⟨x, u⟩ := p
    cases hd : decode (.stimulus x) with
    | ok i =>
      rw [step_of_decode_ok hf hd]
      exact exists_exec_next (safInv_fetch hs hf) i
    | error e =>
      obtain ⟨w, rfl⟩ := eq_request_of_decode_error hd
      rw [step_of_decode_error hf hd]
      exact exists_atPort_next nofun

end Sys2Proof.Machine

/-! PROOFS. The statements about spec/20_memory.md: the order of two interrupt-level events (R70, R236)
and the accesses that write each memory (R60). -/

namespace Sys2Proof.Machine

/-! ## The interrupt-level events as changes of their own registers

Each new value depends on the registers and bytes the event's own row of R235 names and on parameters. -/

/-- What TICK leaves (R150). -/
def tickEffect (s : State) : State :=
  { s with
    cadCnt := if s.cadCnt + 1 = s.cfg.cadThresh then 0 else bump s.cfg.cadThresh s.cadCnt
    sampleNow := if s.cadCnt + 1 = s.cfg.cadThresh then true else s.sampleNow }

/-- What RX.BYTE leaves where its index is inside the buffer (R200). -/
def rxByteEffect (b : Byte) (s : State) : State :=
  { s with
    rxBuf := Memory.write (rxStoreIdx b s).toNat b s.rxBuf
    rxIdx := if rxStoreIdx b s + 1 = 4 then 0 else rxStoreIdx b s + 1
    rxEof := if rxStoreIdx b s + 1 = 4 then true else s.rxEof }

/-- What TX.POP leaves where its byte holds a value (R190). -/
def txPopEffect (s : State) : State :=
  { s with
    out := if s.txBusy then s.out ++ [.txByte ((s.txBuf.read s.txIdx).getD 0)] else s.out
    txIdx := if s.txBusy then bump s.cfg.frameW s.txIdx else s.txIdx
    txBusy := if s.txBusy then decide (s.txIdx + 1 ≠ s.cfg.frameW) else s.txBusy }

/-- What WAKE.FIRE leaves (R125). -/
def wakeFireEffect (s : State) : State :=
  { s with
    wakeArmed := if s.wakeArmed then false else s.wakeArmed
    wakeFired := if s.wakeArmed then true else s.wakeFired }

/-- What HT.RELEASE leaves (R124). -/
def htReleaseEffect (s : State) : State :=
  { s with
    htDir := if s.htState = .hold then 0 else s.htDir
    htState := if s.htState = .hold then .armed else s.htState }

theorem execTick_next {s t : State} (h : execTick s = .next t) : t = tickEffect s := by
  unfold execTick at h
  split at h
  next hc => cases h; simp only [tickEffect, if_pos hc]
  next hc => cases h; simp only [tickEffect, if_neg hc]

theorem execRxByte_next {b : Byte} {s t : State} (h : execRxByte b s = .next t) :
    t = rxByteEffect b s := by
  unfold execRxByte at h
  dsimp only at h
  split at h <;> cases h
  rfl

theorem execTxPop_next {s t : State} (h : execTxPop s = .next t) : t = txPopEffect s := by
  unfold execTxPop at h
  split at h
  next busy =>
    split at h <;> cases h
    next b hread =>
      have hbyte : s.txBuf.read s.txIdx = some b := (memRead_ok.mp hread).2
      simp only [txPopEffect, if_pos busy, hbyte, Option.getD_some, State.emit]
  next idle =>
    cases h
    simp only [txPopEffect, if_neg idle]

theorem execWakeFire_next {s t : State} (h : execWakeFire s = .next t) : t = wakeFireEffect s := by
  unfold execWakeFire at h
  split at h
  next hc => cases h; simp only [wakeFireEffect, if_pos hc]
  next hc => cases h; simp only [wakeFireEffect, if_neg hc]

theorem execHtRelease_next {s t : State} (h : execHtRelease s = .next t) :
    t = htReleaseEffect s := by
  unfold execHtRelease at h
  split at h
  next hc => cases h; simp only [htReleaseEffect, if_pos hc]
  next hc => cases h; simp only [htReleaseEffect, if_neg hc]

/-! ## Their order -/

/-- The interrupt-level events, with the byte one of them receives (R70). -/
def interruptEvents (b : Byte) : List Instr := [.tick, .rxByte b, .txPop, .wakeFire, .htRelease]

/-- What an interrupt-level event leaves; no other instruction is meant. -/
def eventEffect : Instr → State → State
  | .tick, s => tickEffect s
  | .rxByte b, s => rxByteEffect b s
  | .txPop, s => txPopEffect s
  | .wakeFire, s => wakeFireEffect s
  | .htRelease, s => htReleaseEffect s
  | _, s => s

section
variable {i j : Instr} {b : Byte} {s : State}

/-- In a state of the invariant an interrupt-level event occurs, with its effect (R52, R63). -/
theorem exec_eq_eventEffect (hs : SafInv s) (hi : i ∈ interruptEvents b) :
    exec i s = .next (eventEffect i s) := by
  obtain ⟨t, ht⟩ := exists_exec_next hs i
  have effect : t = eventEffect i s := by
    simp only [interruptEvents, List.mem_cons, List.not_mem_nil, or_false] at hi
    obtain rfl | rfl | rfl | rfl | rfl := hi
    · exact execTick_next ht
    · exact execRxByte_next ht
    · exact execTxPop_next ht
    · exact execWakeFire_next ht
    · exact execHtRelease_next ht
  rw [ht, effect]

/-- No event writes what another one reads or writes, so two effects are one update of the state, in
whichever order they are applied. -/
theorem eventEffect_comm (hi : i ∈ interruptEvents b) (hj : j ∈ interruptEvents b) :
    eventEffect j (eventEffect i s) = eventEffect i (eventEffect j s) := by
  simp only [interruptEvents, List.mem_cons, List.not_mem_nil, or_false] at hi hj
  obtain rfl | rfl | rfl | rfl | rfl := hi <;> obtain rfl | rfl | rfl | rfl | rfl := hj <;> rfl

/-- Two interrupt-level events one after the other leave the second effect on the first. -/
theorem runAll_pair_eq_eventEffect (hs : SafInv s)
    (hi : i ∈ interruptEvents b) (hj : j ∈ interruptEvents b) :
    runAll [i, j] s = .next (eventEffect j (eventEffect i s)) := by
  have first := exec_eq_eventEffect hs hi
  have second := exec_eq_eventEffect (safInv_exec hs first) hj
  rw [runAll_cons first, runAll_cons second, runAll]

end

/-- Settles O59: both events occur in either order, and their effects commute. -/
theorem interruptLevelEventsCommute : Obligations.InterruptLevelEventsCommute := by
  intro s b i j hs hi hj _
  rw [runAll_pair_eq_eventEffect hs hi hj, runAll_pair_eq_eventEffect hs hj hi, eventEffect_comm hi hj]

/-! ## Which access writes which memory -/

/-- The writing accesses of R60 and the memory of each, RESET aside. -/
inductive WritesMem (s : State) : Instr → Space → Prop
  | rxByte (b : Byte) : WritesMem s (.rxByte b) .rxBuf
  | cmdTake : WritesMem s .cmdTake .cmdHold
  /-- CMD.TAKE inside POLL.STEP (R165). -/
  | pollCmd (phase : s.pollPhase = .cmd) : WritesMem s .pollStep .cmdHold
  | fmtEnc : WritesMem s .fmtEnc .txBuf
  /-- FMT.ENC inside POLL.STEP (R164). -/
  | pollEnc (phase : s.pollPhase = .enc) : WritesMem s .pollStep .txBuf

section
variable {sp : Space} {s t u : State}

/-- A request writes a memory only by what it does once taken. -/
theorem mem_of_atPort {w : OpWord} {take : State → Taken}
    (hk : ∀ u, take s = .accepted u → u.mem sp = s.mem sp) (h : atPort w take s = .next t) :
    t.mem sp = s.mem sp := by
  obtain ⟨-, rfl⟩ | ⟨-, u, hu, rfl⟩ | ⟨-, r, e, -, rfl⟩ := atPort_next h
  · rfl
  · exact hk u hu
  · rfl

/-- An operation inside a POLL phase writes a memory only by what it does once taken. -/
theorem mem_of_embed {p : PollPhase} {r : Taken} (hk : ∀ u, r = .accepted u → u.mem sp = s.mem sp)
    (h : embed s (toPhase p) r = .next t) : t.mem sp = s.mem sp := by
  obtain ⟨u, hu, rfl⟩ | ⟨c, e, -, rfl⟩ := embed_next h
  · exact hk u hu
  · rfl

theorem mem_lcReadTake {g : BitVec 5} (h : lcReadTake g s = .accepted u) : u.mem sp = s.mem sp := by
  unfold lcReadTake at h
  split at h <;> cases h
  rfl

theorem mem_htStartTake (h : htStartTake s = .accepted u) : u.mem sp = s.mem sp := by
  unfold htStartTake at h
  split at h <;> cases h
  rfl

theorem mem_htReadTake (h : htReadTake s = .accepted u) : u.mem sp = s.mem sp := by
  unfold htReadTake at h
  split at h <;> cases h
  rfl

theorem mem_seqStepTake (h : seqStepTake s = .accepted u) : u.mem sp = s.mem sp := by
  obtain ⟨-, -, hc⟩ | ⟨-, -, hc⟩ | ⟨-, -, hc⟩ | ⟨-, -, hc⟩ | ⟨-, hc⟩ | ⟨-, hc⟩ := seqStepTake_cases s <;>
    cases hc.symm.trans h <;> rfl

theorem mem_pollTake (h : pollTake s = .accepted u) : u.mem sp = s.mem sp := by
  unfold pollTake at h
  split at h <;> cases h <;> rfl

/-- FMT.ENC writes TX_BUF and no other memory (R180). -/
theorem mem_fmtEncTake (hsp : sp ≠ .txBuf) (h : fmtEncTake s = .accepted u) :
    u.mem sp = s.mem sp := by
  unfold fmtEncTake at h
  split at h <;> cases h
  cases sp with
  | rxBuf => rfl
  | cmdHold => rfl
  | txBuf => exact absurd rfl hsp

theorem mem_dispatch (c d2 d1 d0 : Byte) (s : State) :
    (dispatch c d2 d1 d0 s).mem sp = s.mem sp := by
  rw [dispatch_frame]
  rfl

/-- CMD.TAKE writes CMD_HOLD and no other memory (R205). -/
theorem mem_cmdTakeTake (hsp : sp ≠ .cmdHold) (h : cmdTakeTake s = .accepted u) :
    u.mem sp = s.mem sp := by
  obtain ⟨-, hc⟩ | ⟨-, c, d2, d1, d0, -, hc⟩ | ⟨-, f, -, hc⟩ := cmdTakeTake_cases s <;>
    cases hc.symm.trans h
  · rfl
  · rw [mem_dispatch]
    cases sp with
    | rxBuf => rfl
    | cmdHold => exact absurd rfl hsp
    | txBuf => rfl

/-- RX.BYTE writes RX_BUF and no other memory (R200). -/
theorem mem_rxByteEffect (b : Byte) (hsp : sp ≠ .rxBuf) (s : State) :
    (rxByteEffect b s).mem sp = s.mem sp := by
  cases sp with
  | rxBuf => exact absurd rfl hsp
  | cmdHold => rfl
  | txBuf => rfl

theorem mem_lcStepWait (d : Level) (s : State) : (lcStepWait d s).mem sp = s.mem sp := by
  unfold lcStepWait
  dsimp only
  split
  · rfl
  · split
    · rfl
    · split <;> rfl

theorem mem_execLcStep {d : Level} (h : execLcStep d s = .next t) : t.mem sp = s.mem sp := by
  unfold execLcStep at h
  split at h <;> cases h
  · rfl
  · exact mem_lcStepWait d s
  · rfl
  · unfold lcStepGain
    split <;> rfl

theorem mem_htHook (s : State) : (htHook s).mem sp = s.mem sp := by
  rw [htHook_eq]
  rfl

theorem HtStepEffect.mem {l : Level} (h : HtStepEffect l s t) : t.mem sp = s.mem sp := by
  cases h with
  | valid | invalid | timeout => exact mem_htHook _
  | _ => rfl

theorem mem_pollLc (s : State) : (pollLc s).mem sp = s.mem sp := by
  unfold pollLc
  split <;> rfl

/-- POLL.STEP writes a memory only in the phases that format a frame or take a command. -/
theorem mem_execPollStep (hw : ¬WritesMem s .pollStep sp) (h : execPollStep s = .next t) :
    t.mem sp = s.mem sp := by
  unfold execPollStep at h
  split at h
  · cases h; rfl
  · split at h
    case h_1 => cases h; rfl
    case h_2 => exact mem_of_embed (fun _ => mem_seqStepTake) h
    case h_3 => cases h; exact mem_pollLc s
    case h_4 hp =>
      have hsp : sp ≠ .txBuf := fun e => hw (e ▸ .pollEnc hp)
      split at h
      · exact mem_of_embed (fun _ => mem_fmtEncTake hsp) h
      · cases h; rfl
    case h_5 hp =>
      have hsp : sp ≠ .cmdHold := fun e => hw (e ▸ .pollCmd hp)
      split at h
      · exact mem_of_embed (fun _ => mem_cmdTakeTake hsp) h
      · cases h; rfl

/-- An instruction other than RESET leaves every memory that R60 does not let it write. -/
theorem mem_of_exec {i : Instr} (hi : i ≠ .reset) (hw : ¬WritesMem s i sp)
    (h : exec i s = .next t) : t.mem sp = s.mem sp := by
  cases i with
  | lcRead g => exact mem_of_atPort (fun _ => mem_lcReadTake) h
  | htStart => exact mem_of_atPort (fun _ => mem_htStartTake) h
  | htRead => exact mem_of_atPort (fun _ => mem_htReadTake) h
  | fmtEnc => exact mem_of_atPort (fun _ => mem_fmtEncTake fun e => hw (e ▸ .fmtEnc)) h
  | cmdTake => exact mem_of_atPort (fun _ => mem_cmdTakeTake fun e => hw (e ▸ .cmdTake)) h
  | seqStep => exact mem_of_atPort (fun _ => mem_seqStepTake) h
  | poll => exact mem_of_atPort (fun _ => mem_pollTake) h
  | tick => rw [execTick_next h]; rfl
  | rxByte b =>
    have hsp : sp ≠ .rxBuf := fun e => hw (e ▸ .rxByte b)
    rw [execRxByte_next h]
    exact mem_rxByteEffect b hsp s
  | txPop => rw [execTxPop_next h]; rfl
  | wakeFire => rw [execWakeFire_next h]; rfl
  | htRelease => rw [execHtRelease_next h]; rfl
  | reset => exact absurd rfl hi
  | lcStep d => exact mem_execLcStep h
  | htStep l => exact (htStepEffect_of_next h).mem
  | pollStep => exact mem_execPollStep hw h
  | cmdQ d2 d1 d0 => cases h; exact mem_dispatch 0x51 d2 d1 d0 s
  | cmdS d2 d1 d0 => cases h; exact mem_dispatch 0x53 d2 d1 d0 s
  | cmdF d2 d1 d0 => cases h; exact mem_dispatch 0x46 d2 d1 d0 s
  | cmdR d2 d1 d0 => cases h; exact mem_dispatch 0x52 d2 d1 d0 s
  | cmdG d2 d1 d0 => cases h; exact mem_dispatch 0x47 d2 d1 d0 s
  | cmdM d2 d1 d0 => cases h; exact mem_dispatch 0x4D d2 d1 d0 s
  | cmdN d2 d1 d0 => cases h; exact mem_dispatch 0x4E d2 d1 d0 s

end

/-- Settles O58: an access that is none of a memory's writers leaves the whole memory, so every
read of it. -/
theorem onlyTheListedAccessesWriteMemory : Obligations.OnlyTheListedAccessesWriteMemory := by
  intro i s t hi h
  have reads (sp : Space) (hw : ¬WritesMem s i sp) (k : Nat) :
      (t.mem sp).read k = (s.mem sp).read k := by
    rw [mem_of_exec hi hw h]
  refine ⟨fun hrx => reads .rxBuf fun hw => ?_, fun htake hpoll => reads .cmdHold fun hw => ?_,
    fun henc hpoll => reads .txBuf fun hw => ?_⟩
  · cases hw with
    | rxByte b => exact hrx b rfl
  · cases hw with
    | cmdTake => exact htake rfl
    | pollCmd phase => exact hpoll ⟨rfl, phase⟩
  · cases hw with
    | fmtEnc => exact henc rfl
    | pollEnc phase => exact hpoll ⟨rfl, phase⟩

end Sys2Proof.Machine

/-! PROOFS. The statements about spec/30_encoding.md: decoding and encoding (R82, R83, R85, R88, R90), the frame
of the default layout (R91, R182 to R186), and the requests that are accepted (R83, R154, R230). -/

namespace Sys2Proof

/-! ## The operation word -/

@[simp] theorem extractLsb'_op_opWord (op : BitVec 3) (arg : BitVec 5) :
    (opWord op arg).extractLsb' 5 3 = op := BitVec.extractLsb'_append_eq_left

@[simp] theorem extractLsb'_arg_opWord (op : BitVec 3) (arg : BitVec 5) :
    (opWord op arg).extractLsb' 0 5 = arg := BitVec.extractLsb'_append_eq_right

/-- An operation word is its two fields put together (R80). -/
theorem opWord_extractLsb' (w : OpWord) : opWord (w.extractLsb' 5 3) (w.extractLsb' 0 5) = w :=
  (BitVec.extractLsb'_append_extractLsb'_eq_extractLsb' rfl).trans BitVec.extractLsb'_eq_self

theorem toNat_opWord (op : BitVec 3) (arg : BitVec 5) :
    (opWord op arg).toNat = 32 * op.toNat + arg.toNat := by
  rw [opWord, BitVec.toNat_append, ← Nat.shiftLeft_add_eq_or_of_lt arg.isLt, Nat.shiftLeft_eq,
    Nat.mul_comm]

/-- Everything the decoder can answer to an operation word: the instruction whose word it is, or that `op` is
0, or that `arg` is not 0 beside an `op` other than 1 (R82, R83). -/
theorem decodeRequest_opWord_cases (op : BitVec 3) (arg : BitVec 5) :
    (∃ i, decodeRequest (opWord op arg) = .ok i ∧ encode i = .stimulus (.request (opWord op arg))) ∨
    ((op = 0 ∨ (op ≠ 1 ∧ arg ≠ 0)) ∧
      decodeRequest (opWord op arg) = .error (.reservedWord (opWord op arg))) := by
  simp only [decodeRequest, extractLsb'_op_opWord, extractLsb'_arg_opWord]
  by_cases hlc : op = 1
  · subst hlc
    exact .inl ⟨.lcRead arg, rfl, rfl⟩
  rw [if_neg hlc]
  by_cases harg : arg = 0
  · subst harg
    rw [if_neg (not_not_intro rfl)]
    repeat' split
    case isFalse => exact .inr ⟨.inl (by bv_omega), rfl⟩
    all_goals
      subst op
      exact .inl ⟨_, rfl, rfl⟩
  · rw [if_pos harg]
    exact .inr ⟨.inr ⟨hlc, harg⟩, rfl⟩

/-! ## The command frame -/

/-- A frame is its four bytes put together, index 0 first (R88). -/
theorem ofBytes_frameByte (w : Frame) :
    Frame.ofBytes (frameByte w 0) (frameByte w 1) (frameByte w 2) (frameByte w 3) = w := by
  have bytes01 : frameByte w 0 ++ frameByte w 1 = w.extractLsb' 16 16 :=
    BitVec.extractLsb'_append_extractLsb'_eq_extractLsb' rfl
  have bytes012 : w.extractLsb' 16 16 ++ frameByte w 2 = w.extractLsb' 8 24 :=
    BitVec.extractLsb'_append_extractLsb'_eq_extractLsb' rfl
  have bytes0123 : w.extractLsb' 8 24 ++ frameByte w 3 = w.extractLsb' 0 32 :=
    BitVec.extractLsb'_append_extractLsb'_eq_extractLsb' rfl
  rw [Frame.ofBytes, bytes01, bytes012, bytes0123]
  exact BitVec.extractLsb'_eq_self

/-- Bytes that decode as a frame are those the encoder writes (R90). -/
theorem encode_of_decodeBytes {c d2 d1 d0 : Byte} {i : Instr} (h : decodeBytes c d2 d1 d0 = .ok i) :
    encode i = .frame (Frame.ofBytes c d2 d1 d0) := by
  unfold decodeBytes at h
  repeat' (split at h)
  all_goals cases h
  all_goals rw [‹c = _›, encode]

/-! ## Decoding and encoding -/

/-- Settles O1: the word of a request decodes by its fields, a frame by its four bytes. -/
theorem decodeEncodeRoundTrip : Obligations.DecodeEncodeRoundTrip := by
  intro i
  cases i with
  | lcRead g => simp [encode, decode, decodeStimulus, decodeRequest]
  | htStart | htRead | fmtEnc | cmdTake | seqStep | poll => rfl
  | tick | rxByte | txPop | wakeFire | htRelease | reset | lcStep | htStep | pollStep => rfl
  | cmdQ | cmdS | cmdF | cmdR | cmdG | cmdM | cmdN => exact decodeFrame_ofBytes _ _ _ _

/-- The words of a stimulus that decodes are those the encoder writes (R82, R85). -/
theorem encode_of_decodeStimulus {x : Stimulus} {i : Instr} (h : decodeStimulus x = .ok i) :
    encode i = .stimulus x := by
  cases x with
  | request w =>
    rw [← opWord_extractLsb' w] at h ⊢
    obtain ⟨_, hi, he⟩ | ⟨-, hr⟩ := decodeRequest_opWord_cases (w.extractLsb' 5 3) (w.extractLsb' 0 5)
    · cases hi.symm.trans h
      exact he
    · cases hr.symm.trans h
  | strobe line => cases h; cases line <;> rfl
  | rxByte | lcStep | htStep => cases h; rfl

/-- Settles O2: a stimulus and a frame each. -/
theorem decodedWordsReencode : Obligations.DecodedWordsReencode := by
  intro c i h
  cases c with
  | stimulus x => exact encode_of_decodeStimulus h
  | frame w => rw [encode_of_decodeBytes h, ofBytes_frameByte]

/-- Settles O3: a word that is rejected has the reserved fields, which are read off its number; the converse is
`decode_reserved`. -/
theorem reservedWordsAreRejected : Obligations.ReservedWordsAreRejected := by
  intro w
  refine ⟨fun h => ?_, Machine.decode_reserved⟩
  rw [← opWord_extractLsb' w] at h ⊢
  obtain ⟨_, hi, -⟩ | ⟨fields, -⟩ := decodeRequest_opWord_cases (w.extractLsb' 5 3) (w.extractLsb' 0 5)
  · cases hi.symm.trans h
  · rw [toNat_opWord]
    generalize w.extractLsb' 5 3 = op, w.extractLsb' 0 5 = arg at fields ⊢
    bv_omega

/-- Settles O4: the tables' words, run through the decoder. -/
theorem wordsOfTheTablesDecode : Obligations.WordsOfTheTablesDecode :=
  ⟨rfl, rfl, rfl, rfl, rfl, rfl, rfl⟩

end Sys2Proof

namespace Sys2Proof.Machine

/-! ## Requests that are accepted -/

/-- A request that is accepted once taken, on a free port, answers its effect with the response (R83). -/
theorem atPort_of_accepted {w : OpWord} {take : State → Taken} {s u : State} (hb : mainBusy s = false)
    (hu : take s = .accepted u) : atPort w take s = .next { u with opResp := .accepted } := by
  rw [atPort_of_free hb, hu, respond]

theorem lcReadTake_of_legal {g : BitVec 5} (h : gainLegal g = true) (s : State) :
    lcReadTake g s = .accepted (lcReadEffect g s) := if_pos h

/-- A dispatch raises no error but MalformedCommand (R216). -/
theorem dispatch_errSticky (c d2 d1 d0 : Byte) (s : State) :
    (dispatch c d2 d1 d0 s).errSticky = s.errSticky ∨
      (dispatch c d2 d1 d0 s).errSticky = s.errSticky ||| errBit .malformedCommand := by
  obtain ⟨cls, letter, pct, h, -⟩ | ⟨-, h⟩ := dispatch_eq c d2 d1 d0 s
  · left
    rw [h, dispatchAct_eq]
  · right
    rw [h]
    rfl

theorem dispatch_keeps_opRefused (c d2 d1 d0 : Byte) (s : State) :
    (dispatch c d2 d1 d0 s).errSticky &&& 0x20 = s.errSticky &&& 0x20 := by
  obtain h | h := dispatch_errSticky c d2 d1 d0 s
  · rw [h]
  · rw [h, BitVec.and_or_distrib_right]
    have other : errBit .malformedCommand &&& 0x20 = 0 := by decide
    rw [other]
    exact BitVec.or_zero

/-- CMD.TAKE is accepted and does not raise OpRefused (R205, R230). -/
theorem exists_cmdTakeTake_accepted {s : State} (hs : RxInv s) :
    ∃ u, cmdTakeTake s = .accepted u ∧ u.errSticky &&& 0x20 = s.errSticky &&& 0x20 := by
  obtain ⟨-, h⟩ | ⟨-, c, d2, d1, d0, -, h⟩ | ⟨-, f, -, h⟩ := cmdTakeTake_cases s
  · exact ⟨s, h, rfl⟩
  · exact ⟨_, h, dispatch_keeps_opRefused c d2 d1 d0 (cmdCopy c d2 d1 d0 s)⟩
  · exact absurd h (cmdTakeTake_ne_stopped hs f)

/-- SEQ.STEP is accepted but where it would start a wake sequence of a receiver that is not idle (R152, R230). -/
theorem exists_seqStepTake_accepted {s : State} (hs : s.thState ≠ .awaitingWake ∨ s.htState = .idle) :
    ∃ u, seqStepTake s = .accepted u ∧ u.errSticky = s.errSticky := by
  obtain ⟨-, -, h⟩ | ⟨hth, hht, -⟩ | ⟨-, -, h⟩ | ⟨-, -, h⟩ | ⟨-, h⟩ | ⟨-, h⟩ := seqStepTake_cases s
  case inr.inl => exact absurd hs (by simp [hth, hht])
  all_goals exact ⟨_, h, rfl⟩

theorem exists_pollTake_accepted (s : State) :
    ∃ u, pollTake s = .accepted u ∧ u.errSticky = s.errSticky := by
  refine ⟨_, rfl, ?_⟩
  split <;> rfl

/-- Settles O9: each of the four requests is accepted once taken, with an effect that raises no refusal. -/
theorem otherRequestsAreAccepted : Obligations.OtherRequestsAreAccepted := by
  rintro s ⟨-, -, -, -, -, rx⟩ hb
  refine ⟨fun g hg => ?_, ?_, fun hs => ?_, ?_⟩
  · have legal : gainLegal g = true := by rcases hg with rfl | rfl | rfl <;> rfl
    exact ⟨_, atPort_of_accepted hb (lcReadTake_of_legal legal s), rfl, rfl⟩
  · obtain ⟨u, hu, he⟩ := exists_cmdTakeTake_accepted rx
    exact ⟨_, atPort_of_accepted hb hu, rfl, he⟩
  · obtain ⟨u, hu, he⟩ := exists_seqStepTake_accepted hs
    exact ⟨_, atPort_of_accepted hb hu, rfl, he⟩
  · obtain ⟨u, hu, he⟩ := exists_pollTake_accepted s
    exact ⟨_, atPort_of_accepted hb hu, rfl, he⟩

theorem seqStepTake_of_sampling {s : State} (h : s.thState = .sampling) :
    seqStepTake s = .accepted s := by
  rw [seqStepTake, h]

/-- Settles O34: the request is taken and changes nothing of its own. -/
theorem seqStepInSamplingIsOnlyAccepted : Obligations.SeqStepInSamplingIsOnlyAccepted :=
  fun _ hb hs => atPort_of_accepted hb (seqStepTake_of_sampling hs)

/-! ## The frame of the default layout -/

/-- The load field, then the humidity field, which alone can hold the error marker, and the temperature
field between separators, then the terminator (R91, R185). -/
theorem telemetryFrame_of_default_layout {s : State} (hl : s.cfg.layout = Config.default.layout) :
    telemetryFrame s = loadField s ++
      (s.cfg.sep :: fieldBytes s (!s.htNew && s.htFail) .hum ++
        s.cfg.sep :: fieldBytes s false .temp ++ [s.cfg.sep, s.cfg.term0, s.cfg.term1]) := by
  simp [telemetryFrame, hl, Config.default, renderFields, fieldIsReading, fieldBytes]

theorem dec_two (n : Nat) : dec 2 n = [asc (n / 10 % 10), asc (n % 10)] := by
  simp [dec, digit]

theorem humField_eq (s : State) :
    humField s = [asc ((s.htFrame.extractLsb' 32 8).toNat / 10 % 10),
      asc ((s.htFrame.extractLsb' 32 8).toNat % 10)] := dec_two _

/-- The temperature's byte is bits 23:16 of the frame: its sign in bit 23, its magnitude below (R27, R184). -/
theorem tempField_eq {s : State} (hw : s.cfg.tempW = 3) :
    tempField s = [if s.htFrame.getLsbD 23 then 0x2D else s.cfg.tsignPos,
      asc ((s.htFrame.extractLsb' 16 7).toNat / 10 % 10), asc ((s.htFrame.extractLsb' 16 7).toNat % 10)] := by
  have sign : (htByte s.htFrame 2).getLsbD 7 = s.htFrame.getLsbD 23 := by simp [htByte]
  have mag : (htByte s.htFrame 2).extractLsb' 0 7 = s.htFrame.extractLsb' 16 7 := by
    refine BitVec.eq_of_getLsbD_eq fun j hj => ?_
    simp [htByte, hj, show j < 8 by omega]
  simp only [tempField, if_pos hw, sign, mag, dec_two]

/-- Settles O42: the load field is eight bytes, and the other fields are a reading's or placeholders. -/
theorem defaultLayoutFrame : Obligations.DefaultLayoutFrame := by
  intro s hl hw
  rw [telemetryFrame_of_default_layout hl, List.take_left' (loadField_length s),
    List.drop_left' (loadField_length s)]
  refine ⟨rfl, fun hn => ?_, fun hn hf => ?_, fun hn hf => ?_⟩
  · simp only [fieldBytes, hn, if_true, humField_eq, tempField_eq hw]
    rfl
  · simp [fieldBytes, hn, hf, hw, placeholders, humW, placeholder, List.replicate]
  · simp [fieldBytes, hn, hf, hw, placeholders, humW, placeholder, errMark, List.replicate]

end Sys2Proof.Machine

/-! PROOFS. The statements about spec/40_lcser.md: the requests that are refused (R230), LC.READ (R101),
LC.STEP in its three states (R103 to R106), and a whole read: its pulses (R108) and its value (R107). -/

namespace Sys2Proof.Machine

/-! ## Refused requests -/

/-- A request that is declined once taken, on a free port, is refused (R230). -/
theorem atPort_of_declined {w : OpWord} {take : State → Taken} {s : State} {r : OpResp} {e : ErrorCause}
    (hb : mainBusy s = false) (hd : take s = .declined r e) : atPort w take s = .next (s.refuse r e) := by
  rw [atPort_of_free hb, hd, respond]

theorem lcReadTake_of_illegal {g : BitVec 5} (h : gainLegal g = false) (s : State) :
    lcReadTake g s = .declined .refusedGain .illegalGain := by
  simp [lcReadTake, h]

theorem htStartTake_of_not_idle {s : State} (h : s.htState ≠ .idle) :
    htStartTake s = .declined .refusedState .opRefused := if_neg h

theorem htReadTake_of_not_ready {s : State} (h : htReadReady s = false) :
    htReadTake s = .declined .refusedState .opRefused := by
  simp [htReadTake, h]

theorem fmtEncTake_declined {s : State} (h : s.lcValid = false ∨ s.txBusy = true) :
    fmtEncTake s = .declined .refusedState .opRefused := by
  rcases h with h | h <;> simp [fmtEncTake, h]

theorem seqStepTake_declined {s : State} (hth : s.thState = .awaitingWake) (hht : s.htState ≠ .idle) :
    seqStepTake s = .declined .refusedState .opRefused := by
  rw [seqStepTake, hth]
  simp only [htStartTake_of_not_idle hht, Taken.map]

/-- Settles O8: each of the five requests is declined once taken, and a refusal writes two registers. -/
theorem refusedRequestsChangeOnlyRespAndSticky : Obligations.RefusedRequestsChangeOnlyRespAndSticky := by
  intro s hb
  refine ⟨fun g hg => ?_, fun h => ?_, fun h => ?_, fun h => ?_, fun hth hht => ?_⟩
  · have illegal : gainLegal g = false := by simpa [gainLegal, and_assoc] using hg
    exact atPort_of_declined hb (lcReadTake_of_illegal illegal s)
  · exact atPort_of_declined hb (htStartTake_of_not_idle h)
  · have notReady : htReadReady s = false := by
      rcases h with h | ⟨hold, armed⟩
      · simp [htReadReady, h]
      · simp [htReadReady, hold, armed]
    exact atPort_of_declined hb (htReadTake_of_not_ready notReady)
  · exact atPort_of_declined hb (fmtEncTake_declined h)
  · exact atPort_of_declined hb (seqStepTake_declined hth hht)

/-! ## LC.READ -/

/-- Settles O11: the request is accepted with its effect, in which the timeout decides about lc_wait only. -/
theorem lcReadAccepted : Obligations.LcReadAccepted := by
  intro s g hb hg
  have legal : gainLegal g = true := by rcases hg with rfl | rfl | rfl <;> rfl
  have accepted : exec (.lcRead g) s = .next { lcReadEffect g s with opResp := .accepted } :=
    atPort_of_accepted hb (lcReadTake_of_legal legal s)
  refine ⟨fun n finite => ?_, fun infinite => ?_⟩
  · simp only [accepted, lcReadEffect, finite, reduceCtorEq, if_false]
  · simp only [accepted, lcReadEffect, infinite, if_true]

/-! ## LC.STEP -/

theorem exec_lcStep_of_wait {s : State} (h : s.lcState = .wait) (d : Level) :
    exec (.lcStep d) s = .next (lcStepWait d s) := by
  simp only [exec, execLcStep, h]

theorem exec_lcStep_of_shift {s : State} (h : s.lcState = .shift) (d : Level) :
    exec (.lcStep d) s = .next (lcStepShift d s) := by
  simp only [exec, execLcStep, h]

theorem exec_lcStep_of_gain {s : State} (h : s.lcState = .gain) (d : Level) :
    exec (.lcStep d) s = .next (lcStepGain s) := by
  simp only [exec, execLcStep, h]

theorem lcStepWait_of_ready {s : State} {d : Level} (h : d = s.cfg.drdyActive) :
    lcStepWait d s = { s with lcState := .shift } := if_pos h

theorem lcStepWait_of_infinite {s : State} {d : Level} (h : d ≠ s.cfg.drdyActive)
    (infinite : s.cfg.lcTimeout = none) : lcStepWait d s = s := by
  simp only [lcStepWait, if_neg h, infinite]

/-- A sample that is not ready counts in lc_wait below the timeout (R103). -/
theorem lcStepWait_of_below {s : State} {d : Level} {n : Nat} (h : d ≠ s.cfg.drdyActive)
    (finite : s.cfg.lcTimeout = some n) (below : s.lcWait + 1 < n) :
    lcStepWait d s = { s with lcWait := s.lcWait + 1 } := by
  have counted : bump n s.lcWait = s.lcWait + 1 := bump_of_lt (by omega)
  simp only [lcStepWait, if_neg h, finite, counted, if_neg (Nat.ne_of_lt below)]

/-- The sample that brings lc_wait to the timeout ends the read (R103). -/
theorem lcStepWait_of_last {s : State} {d : Level} {n : Nat} (h : d ≠ s.cfg.drdyActive)
    (finite : s.cfg.lcTimeout = some n) (last : s.lcWait + 1 = n) :
    lcStepWait d s =
      { s with lcWait := n, lcStatus := .notReady, lcState := .idle }.raise .sensorNotReady := by
  simp only [lcStepWait, if_neg h, finite, bump_of_succ_eq last, if_true]

/-- Settles O12: the four outcomes of one sample. -/
theorem lcStepWaitsForDataReady : Obligations.LcStepWaitsForDataReady := by
  intro s d wait
  rw [exec_lcStep_of_wait wait]
  refine ⟨fun ready => ?_, fun miss infinite => ?_, fun n miss finite below => ?_,
    fun n miss finite last => ?_⟩
  · rw [lcStepWait_of_ready ready]
  · rw [lcStepWait_of_infinite miss infinite]
  · rw [lcStepWait_of_below miss finite below]
  · rw [lcStepWait_of_last miss finite last]
    rfl

/-- Shifting a word left and setting the freed bit puts the bit behind the word's lower 23 (R104). -/
theorem shiftLeft_or_setWidth (w : BitVec 24) (d : Level) :
    w <<< 1 ||| d.setWidth 24 = w.extractLsb' 0 23 ++ d := by
  refine BitVec.eq_of_getLsbD_eq fun i hi => Eq.trans ?_ BitVec.getLsbD_append.symm
  cases i with
  | zero => simp
  | succ i => simp [hi, show i < 23 by omega, BitVec.getLsbD_eq_getElem (show i < 24 by omega)]

/-- Settles O13: the pulse, the shifted-in draw and, after the pulse numbered 24, the change to LC_GAIN. -/
theorem lcStepShiftsInOneBit : Obligations.LcStepShiftsInOneBit := by
  intro s d shift
  have last : s.lcBitcnt + 1 = 24 ↔ s.lcBitcnt = 23 := by bv_omega
  rw [exec_lcStep_of_shift shift]
  simp only [lcStepShift, last, shiftLeft_or_setWidth]
  rfl

theorem lcStepGain_of_more {s : State} (h : s.lcBitcnt + 1 ≠ s.lcGain) : lcStepGain s = lcPulse s :=
  if_neg h

theorem lcStepGain_of_last {s : State} (h : s.lcBitcnt + 1 = s.lcGain) :
    lcStepGain s = lcComplete (lcPulse s) := if_pos h

/-- Settles O14: the pulse numbered lc_gain also completes the read. -/
theorem lcStepGivesExtraPulsesAndCompletes : Obligations.LcStepGivesExtraPulsesAndCompletes := by
  intro s d gain
  rw [exec_lcStep_of_gain gain]
  refine ⟨fun more => ?_, fun last => ?_⟩
  · rw [lcStepGain_of_more more]
    rfl
  · rw [lcStepGain_of_last last]
    rfl

/-! ## A whole read -/

/-- The state after `n` pulses in a row: each emitted with its number and counted (R102). -/
def lcPulses (n : Nat) (s : State) : State :=
  { s with
    out := s.out ++ (List.range n).map (fun k => .lcPulse ((s.lcBitcnt + BitVec.ofNat 5 k).toNat + 1))
    lcBitcnt := s.lcBitcnt + BitVec.ofNat 5 n
    lcSck := 0 }

theorem lcPulses_one (s : State) : lcPulses 1 s = lcPulse s := by
  simp only [lcPulses, lcPulse, State.emit, List.range_one, List.map_singleton, BitVec.add_zero]
  rfl

theorem lcPulses_lcPulses (m n : Nat) (s : State) : lcPulses n (lcPulses m s) = lcPulses (m + n) s := by
  simp [lcPulses, List.range_add, BitVec.ofNat_add, BitVec.add_assoc, Function.comp_def]

theorem lcPulses_lcPulse (n : Nat) (s : State) : lcPulses n (lcPulse s) = lcPulses (n + 1) s := by
  rw [← lcPulses_one, lcPulses_lcPulses, Nat.add_comm]

/-- The shift register after the draws `ds`, the first of them shifted in first (R104). -/
def shiftIn (ds : List Level) (w : BitVec 24) : BitVec 24 :=
  ds.foldl (fun w d => w <<< 1 ||| d.setWidth 24) w

theorem shiftIn_append_singleton (ds : List Level) (d : Level) (w : BitVec 24) :
    shiftIn (ds ++ [d]) w = shiftIn ds w <<< 1 ||| d.setWidth 24 := by
  rw [shiftIn, List.foldl_append]
  rfl

/-- The draws up to the 24th pulse are shifted in and lead to LC_GAIN (R104). -/
theorem runAll_data {data : List Level} {s : State} (shift : s.lcState = .shift)
    (hd : data ≠ []) (hlen : s.lcBitcnt.toNat + data.length = 24) :
    runAll (data.map .lcStep) s = .next { lcPulses data.length s with
      lcShreg := shiftIn data s.lcShreg, lcState := .gain } := by
  induction data generalizing s with
  | nil => exact absurd rfl hd
  | cons d ds ih =>
    rw [List.map_cons, runAll_cons (exec_lcStep_of_shift shift d), lcStepShift]
    rw [List.length_cons] at hlen ⊢
    cases ds with
    | nil =>
      have last : s.lcBitcnt + 1 = 24 := by
        rw [List.length_nil] at hlen
        bv_omega
      rw [if_pos last, List.length_nil, lcPulses_one]
      rfl
    | cons e ds =>
      rw [List.length_cons] at hlen
      have more : s.lcBitcnt + 1 ≠ 24 := by bv_omega
      have count : (s.lcBitcnt + 1).toNat + (e :: ds).length = 24 := by
        rw [List.length_cons]
        bv_omega
      rw [if_neg more, ← lcPulses_lcPulse]
      exact ih rfl (List.cons_ne_nil e ds) count

/-- The pulses from the 25th on complete the read when their last is the one numbered lc_gain (R105). -/
theorem runAll_extra {extra : List Level} {s : State} (gain : s.lcState = .gain)
    (he : extra ≠ []) (hlen : s.lcBitcnt.toNat + extra.length = s.lcGain.toNat) :
    runAll (extra.map .lcStep) s = .next (lcComplete (lcPulses extra.length s)) := by
  induction extra generalizing s with
  | nil => exact absurd rfl he
  | cons d ds ih =>
    rw [List.map_cons, runAll_cons (exec_lcStep_of_gain gain d)]
    rw [List.length_cons] at hlen ⊢
    cases ds with
    | nil =>
      have last : s.lcBitcnt + 1 = s.lcGain := by
        rw [List.length_nil] at hlen
        bv_omega
      rw [lcStepGain_of_last last, List.length_nil, lcPulses_one]
      rfl
    | cons e ds =>
      rw [List.length_cons] at hlen
      have more : s.lcBitcnt + 1 ≠ s.lcGain := by bv_omega
      have count : (s.lcBitcnt + 1).toNat + (e :: ds).length = s.lcGain.toNat := by
        rw [List.length_cons]
        bv_omega
      rw [lcStepGain_of_more more, ← lcPulses_lcPulse]
      exact ih gain (List.cons_ne_nil e ds) count

/-- A read at a legal gain: lc_gain pulses, the 24 data draws in the shift register, and the completion
(R104 to R106). -/
theorem runAll_read {s : State} {data extra : List Level} (shift : s.lcState = .shift)
    (first : s.lcBitcnt = 0) (legal : gainLegal s.lcGain = true) (hdata : data.length = 24)
    (hextra : extra.length = s.lcGain.toNat - 24) :
    runAll ((data ++ extra).map .lcStep) s = .next (lcComplete
      { lcPulses s.lcGain.toNat s with lcShreg := shiftIn data s.lcShreg }) := by
  have hgain : 24 < s.lcGain.toNat := (gainLegal_bounds legal).1
  have hd : data ≠ [] := List.length_pos_iff.mp (by omega)
  have he : extra ≠ [] := List.length_pos_iff.mp (by omega)
  have afterData := runAll_data shift hd (by simp [first, hdata])
  have pulses : lcPulses extra.length (lcPulses data.length s) = lcPulses s.lcGain.toNat s := by
    rw [lcPulses_lcPulses]
    congr 1
    omega
  rw [List.map_append, runAll_append _ _ _ _ afterData, runAll_extra rfl he, ← pulses]
  · rfl
  · simp [lcPulses, first, hdata]
    omega

/-- The pulses of a read are numbered from 1 (R108). -/
theorem lcPulses_out {s : State} {n : Nat} (first : s.lcBitcnt = 0) (hn : n < 32) :
    (lcPulses n s).out = s.out ++ (List.range n).map (fun k => .lcPulse (k + 1)) := by
  simp only [lcPulses, first, List.append_cancel_left_eq]
  refine List.map_congr_left fun k hk => ?_
  have hk : k < n := List.mem_range.mp hk
  simp
  omega

/-- Settles O17: the state a whole read ends in, field by field. -/
theorem completedReadIssuesGainPulses : Obligations.CompletedReadIssuesGainPulses := by
  intro s t data extra shift first legal hdata hextra h
  cases (runAll_read shift first legal hdata hextra).symm.trans h
  have bitcnt : s.lcBitcnt + BitVec.ofNat 5 s.lcGain.toNat = s.lcGain := by simp [first]
  have out := lcPulses_out first s.lcGain.isLt
  exact ⟨rfl, bitcnt, rfl, out, rfl, rfl, rfl, rfl, rfl, rfl⟩

/-! ## The value of a read -/

/-- The first `n` bits of a word, most significant first (R86). -/
def msbDraws (n : Nat) (v : BitVec 24) : List Level :=
  (List.range n).map (fun k => BitVec.ofBool (v.getMsbD k))

theorem lcDraws_eq_map (v : BitVec 24) : lcDraws v = (msbDraws 24 v).map .lcStep := by
  rw [lcDraws, msbDraws, List.map_map]
  rfl

theorem msbDraws_length (n : Nat) (v : BitVec 24) : (msbDraws n v).length = n := by
  simp [msbDraws]

theorem msbDraws_succ (n : Nat) (v : BitVec 24) :
    msbDraws (n + 1) v = msbDraws n v ++ [BitVec.ofBool (v.getMsbD n)] := by
  rw [msbDraws, List.range_succ, List.map_append]
  rfl

/-- After `n` draws the first `n` bits of the word stand below what was in the shift register (R104). -/
theorem shiftIn_msbDraws (v w : BitVec 24) {n : Nat} (hn : n ≤ 24) :
    shiftIn (msbDraws n v) w = w <<< n ||| v >>> (24 - n) := by
  induction n with
  | zero =>
    rw [BitVec.ushiftRight_eq_zero (by omega), BitVec.shiftLeft_zero, BitVec.or_zero]
    rfl
  | succ n ih =>
    rw [msbDraws_succ, shiftIn_append_singleton, ih (by omega)]
    refine BitVec.eq_of_getLsbD_eq fun i hi => ?_
    cases i with
    | zero => simp [BitVec.getMsbD_eq_getLsbD, show n < 24 by omega]
    | succ i =>
      have low : 24 - n + i = 24 - (n + 1) + (i + 1) := by omega
      simp [hi, low]

/-- A whole word replaces what was in the shift register. -/
theorem shiftIn_word (v w : BitVec 24) : shiftIn (msbDraws 24 v) w = v := by
  rw [shiftIn_msbDraws v w (Nat.le_refl 24)]
  simp

/-- The value of a completed sample is its word in two's complement (R23, R106). -/
theorem lcValue_lcComplete (s : State) : lcValue (lcComplete s) = s.lcShreg.toInt := by
  simp only [lcValue, lcComplete, sampleMag_toNat, sampleNeg_eq_decide, decide_eq_true_eq]
  split <;> omega

/-- Settles O16: the read completes with the pattern of `v`, whose two's-complement integer is `v`. -/
theorem loadCellReadRoundTrip : Obligations.LoadCellReadRoundTrip := by
  intro s v extra shift first legal hextra hlo hhi
  have value : (BitVec.ofInt 24 v).toInt = v := BitVec.toInt_ofInt_eq_self (by decide) hlo (by omega)
  have raw : ((BitVec.ofInt 24 v).toNat : Int) = v % 2 ^ 24 := by
    rw [BitVec.toNat_ofInt]
    exact Int.toNat_of_nonneg (Int.emod_nonneg v (by decide))
  have run := runAll_read shift first legal (msbDraws_length 24 (BitVec.ofInt 24 v)) hextra
  rw [shiftIn_word, List.map_append, ← lcDraws_eq_map] at run
  refine ⟨_, run, rfl, rfl, (lcValue_lcComplete _).trans value, raw, ?_, ?_⟩
  · simp [lcComplete, sampleNeg_eq_decide, value]
  · simp [lcComplete, sampleMag_toNat, value]

end Sys2Proof.Machine

/-! PROOFS. The statements about spec/41_htrx.md: HT.START, HT.RELEASE, WAKE.FIRE and HT.READ
(R121, R124, R125, R128), what HT.STEP does in each of its states (R129 to R139), a whole read (R140), and
that no read starts before the wake latency has elapsed (R127, R153). -/

namespace Sys2Proof.Machine

/-! ## HT.STEP in a wait and in HT_BSMP -/

/-- A wait that sees its target goes on, end of frame aside (R129). -/
theorem exec_htStep_of_hit {s : State} {a : HtState} {l : Level} (wait : s.htState = a)
    (target : htTarget a = some l) (more : a = .bwl → s.htBitidx ≠ 40) :
    exec (.htStep l) s = .next { s with htTo := 0, htState := htNext a } := by
  subst wait
  have goesOn : ¬(s.htState = .bwl ∧ s.htBitidx = 40) := fun ⟨bwl, last⟩ => more bwl last
  simp only [exec, execHtStep, target, if_true, htWaitHit, if_neg goesOn]

/-- The fall after the 40th bit ends the frame (R135). -/
theorem exec_htStep_of_last {s : State} (bwl : s.htState = .bwl) (last : s.htBitidx = 40) :
    exec (.htStep 0) s = .next (htEndOfFrame { s with htTo := 0 }) := by
  simp [exec, execHtStep, bwl, htTarget, htWaitHit, last]

theorem exec_htStep_of_miss {s : State} {g l : Level} (target : htTarget s.htState = some g)
    (miss : l ≠ g) : exec (.htStep l) s = .next (htWaitMiss s) := by
  simp only [exec, execHtStep, target, if_neg miss]

theorem exec_htStep_of_bsmp {s : State} (bit : s.htState = .bsmp) (l : Level) :
    exec (.htStep l) s = .next (htSample l s) := by
  simp [exec, execHtStep, bit, htTarget]

/-- Settles O22: the target of each wait is the level of its row of R129. -/
theorem htStepWaitSeesItsTarget : Obligations.HtStepWaitSeesItsTarget := fun _ =>
  ⟨fun w1 => exec_htStep_of_hit w1 rfl nofun,
    fun w2 => exec_htStep_of_hit w2 rfl nofun,
    fun w3 => exec_htStep_of_hit w3 rfl nofun,
    fun bwh => exec_htStep_of_hit bwh rfl nofun,
    fun bwl more => exec_htStep_of_hit bwl rfl (fun _ => BitVec.ne_of_lt more)⟩

/-- Shifting a word left and setting the freed bit puts the bit behind the word's lower bits (R134). -/
theorem shiftLeft_one_or_setWidth {m : Nat} (w : BitVec (m + 1)) (d : Level) :
    w <<< 1 ||| d.setWidth (m + 1) = w.extractLsb' 0 m ++ d := by
  refine BitVec.eq_of_getLsbD_eq fun i hi => Eq.trans ?_ BitVec.getLsbD_append.symm
  cases i with
  | zero => simp
  | succ i =>
    have low : i < m := by omega
    simp [low, BitVec.getLsbD_eq_getElem (Nat.lt_succ_of_lt low)]

/-- Settles O24: the freed bit of the shift register takes the draw. -/
theorem htStepSamplesOneBit : Obligations.HtStepSamplesOneBit := by
  intro s v bit
  rw [exec_htStep_of_bsmp bit, htSample, shiftLeft_one_or_setWidth]

/-! ## A read that ends -/

/-- A failed read records its status and error, idles the line and sends SEQ to rest (R131, R138, R139). -/
theorem htFailed_eq (st : HtStatus) (e : ErrorCause) (s : State) :
    htFailed st e s = { s with
      htStatus := st, htDir := 1, htOut := 1, htState := .idle, htNew := false, htFail := true
      errSticky := s.errSticky ||| errBit e
      thState := if s.thState = .sampling then .waitingRest else s.thState
      restCnt := if s.thState = .sampling then 0 else s.restCnt } := by
  rw [htFailed, htHook_eq]
  rfl

/-- A successful read surfaces the shift register, idles the line and sends SEQ to rest (R137, R139). -/
theorem htSuccess_eq (s : State) :
    htSuccess s = { s with
      htFrame := s.htShreg, htStatus := .ok, htDir := 1, htOut := 1, htState := .idle
      htNew := true, htFail := false, out := s.out ++ [.htRest]
      thState := if s.thState = .sampling then .waitingRest else s.thState
      restCnt := if s.thState = .sampling then 0 else s.restCnt } := by
  rw [htSuccess, htHook_eq]
  rfl

/-- The checksum test adds the first four bytes modulo 256 and compares the fifth (R136). -/
theorem checksumOk_iff (f : BitVec 40) :
    checksumOk f = true ↔
      ((f.extractLsb' 32 8).toNat + (f.extractLsb' 24 8).toNat + (f.extractLsb' 16 8).toNat +
        (f.extractLsb' 8 8).toNat) % 256 = (f.extractLsb' 0 8).toNat := by
  simp only [checksumOk, htByte, decide_eq_true_eq, ← BitVec.toNat_inj, BitVec.toNat_add,
    Nat.reduceMul, Nat.reduceSub]
  omega

/-- Settles O25: the frame ends with a right checksum. -/
theorem htEndOfFrameSuccess : Obligations.HtEndOfFrameSuccess := by
  intro s bwl last sum
  have valid : checksumOk s.htShreg = true := (checksumOk_iff _).mpr sum
  rw [exec_htStep_of_last bwl last, htEndOfFrame, if_pos valid, htSuccess_eq]

/-- Settles O26: the frame ends with a wrong checksum. -/
theorem htEndOfFrameChecksumMismatch : Obligations.HtEndOfFrameChecksumMismatch := by
  intro s bwl last sum
  have invalid : ¬checksumOk s.htShreg = true := mt (checksumOk_iff _).mp sum
  rw [exec_htStep_of_last bwl last, htEndOfFrame, if_neg invalid, htChecksumMismatch, htFailed_eq]
  rfl

theorem htWaitMiss_of_below {s : State} (below : s.htTo + 1 < s.cfg.htTo) :
    htWaitMiss s = { s with htTo := s.htTo + 1 } := by
  have counted : bump s.cfg.htTo s.htTo = s.htTo + 1 := bump_of_lt (by omega)
  simp only [htWaitMiss, counted, if_neg (Nat.ne_of_lt below)]

theorem htWaitMiss_of_last {s : State} (last : s.htTo + 1 = s.cfg.htTo) :
    htWaitMiss s = htFailed .timeout .sensorTimeout { s with htTo := s.cfg.htTo } := by
  simp only [htWaitMiss, bump_of_succ_eq last, if_pos last, htTimeout]

/-- Settles O23: in each of the five waits the level is not the target, and the count decides. -/
theorem htStepMissCountsThenTimesOut : Obligations.HtStepMissCountsThenTimesOut := by
  intro s l wrong
  have miss : exec (.htStep l) s = .next (htWaitMiss s) := by
    obtain ⟨h | h | h, rfl⟩ | ⟨h | h, rfl⟩ := wrong
    all_goals exact exec_htStep_of_miss (congrArg htTarget h) (by decide)
  rw [miss]
  refine ⟨fun below => ?_, fun last => ?_⟩
  · rw [htWaitMiss_of_below below]
  · rw [htWaitMiss_of_last last, htFailed_eq]
    rfl

/-! ## A whole read -/

theorem runAll_singleton (i : Instr) (s : State) : runAll [i] s = exec i s := by
  simp only [runAll]
  cases exec i s <;> rfl

/-- The state between two bits, after the first `n` bits of `f`: they stand below what was in the shift
register (R134, R140). -/
def htReceived (f : BitVec 40) (n : Nat) (s : State) : State :=
  { s with
    htTo := 0
    htState := .bwh
    htBitidx := BitVec.ofNat 6 n
    htShreg := s.htShreg <<< n ||| f >>> (40 - n) }

theorem htReceived_zero {s : State} (first : s.htBitidx = 0) (f : BitVec 40) :
    htReceived f 0 s = { s with htTo := 0, htState := .bwh } := by
  simp [htReceived, first, BitVec.ushiftRight_eq_zero]

/-- All 40 bits of a frame replace what was in the shift register. -/
theorem htReceived_all (f : BitVec 40) (s : State) :
    htReceived f 40 s = { s with htTo := 0, htState := .bwh, htBitidx := 40, htShreg := f } := by
  simp [htReceived]

/-- Behind the first `n` bits of a word, most significant first, its next bit makes the first `n + 1`. -/
theorem shiftIn_next_msb {m n : Nat} (v w : BitVec m) (hn : n < m) :
    (w <<< n ||| v >>> (m - n)) <<< 1 ||| (BitVec.ofBool (v.getMsbD n)).setWidth m =
      w <<< (n + 1) ||| v >>> (m - (n + 1)) := by
  refine BitVec.eq_of_getLsbD_eq fun i hi => ?_
  cases i with
  | zero =>
    have first : m - 1 - n = m - (n + 1) := by omega
    simp [BitVec.getMsbD_eq_getLsbD, hn, hi, first]
  | succ i =>
    have low : m - n + i = m - (n + 1) + (i + 1) := by omega
    simp [hi, low]

/-- Sampling the next bit of `f` is receiving it, short of the fall that follows (R134). -/
theorem htSample_htReceived (f : BitVec 40) {n : Nat} (hn : n < 40) (s : State) :
    htSample (BitVec.ofBool (f.getMsbD n)) (htReceived f n s) =
      { htReceived f (n + 1) s with htState := .bwl } := by
  simp only [htSample, htReceived, shiftIn_next_msb f s.htShreg hn, BitVec.ofNat_add]
  rfl

/-- A bit rises, is sampled and falls (R129, R134). -/
theorem runAll_htBit {s : State} (bwh : s.htState = .bwh) (v : Bool) :
    runAll (htBit v) s = exec (.htStep 0) (htSample (BitVec.ofBool v) s) := by
  have rise : exec (.htStep 1) s = .next { s with htTo := 0, htState := .bsmp } :=
    exec_htStep_of_hit bwh rfl nofun
  rw [htBit, runAll_cons rise, runAll_cons (exec_htStep_of_bsmp rfl _), runAll_singleton]
  rfl

/-- The bits of a frame before its last are received one after another. -/
theorem runAll_htBits (f : BitVec 40) (s : State) {n : Nat} (hn : n < 40) :
    runAll ((List.range n).flatMap fun k => htBit (f.getMsbD k)) (htReceived f 0 s) =
      .next (htReceived f n s) := by
  induction n with
  | zero => rfl
  | succ n ih =>
    have more : BitVec.ofNat 6 (n + 1) ≠ 40 := by bv_omega
    rw [List.range_succ, List.flatMap_append, runAll_append _ _ _ _ (ih (by omega)),
      List.flatMap_singleton, runAll_htBit rfl, htSample_htReceived f (by omega)]
    exact exec_htStep_of_hit rfl rfl fun _ => more

/-- A read without a miss ends the frame with the 40 bits of `f` in the shift register (R140). -/
theorem runAll_htFeed {s : State} (start : s.htState = .w1) (first : s.htBitidx = 0) (f : BitVec 40) :
    runAll (htFeed f) s = .next (htEndOfFrame
      { s with htTo := 0, htState := .bwl, htBitidx := 40, htShreg := f }) := by
  have ack : runAll [.htStep 0, .htStep 1, .htStep 0] s = .next (htReceived f 0 s) := by
    rw [runAll_cons (exec_htStep_of_hit start rfl nofun), 
      runAll_cons (exec_htStep_of_hit (a := .w2) rfl rfl nofun),
      runAll_cons (exec_htStep_of_hit (a := .w3) rfl rfl nofun), htReceived_zero first]
    rfl
  have bits := runAll_htBits f s (show 39 < 40 by decide)
  rw [htFeed, runAll_append _ _ _ _ ack, List.range_succ, List.flatMap_append,
    runAll_append _ _ _ _ bits, List.flatMap_singleton, runAll_htBit rfl,
    htSample_htReceived f (by decide), htReceived_all]
  exact exec_htStep_of_last rfl rfl

/-- Settles O27: the checksum of the assembled frame decides the outcome. -/
theorem humidityFrameAssembly : Obligations.HumidityFrameAssembly := by
  intro s f start first
  refine ⟨_, runAll_htFeed start first f, ?_⟩
  by_cases sum : checksumOk f = true
  · rw [htEndOfFrame, if_pos sum, htSuccess_eq]
    exact ⟨rfl, rfl, rfl, fun _ => ⟨rfl, rfl, rfl, rfl, rfl, rfl⟩,
      fun wrong => nomatch sum.symm.trans wrong⟩
  · rw [htEndOfFrame, if_neg sum, htChecksumMismatch, htFailed_eq]
    exact ⟨rfl, rfl, rfl, fun right => absurd right sum, fun _ => ⟨rfl, rfl, rfl, rfl, rfl, rfl⟩⟩

/-! ## Wake sequences and the start of a read -/

/-- Main level is free: no unit operation and no poll is in progress (R51). -/
theorem mainBusy_eq_false {s : State} :
    mainBusy s = false ↔ s.lcState = .idle ∧ s.htState.reading = false ∧ s.pollPhase = .idle := by
  simp [mainBusy, unitBusy_eq_false, and_assoc]

theorem mainBusy_of_reading {s : State} (reading : s.htState.reading = true) : mainBusy s = true := by
  simp [mainBusy, unitBusy, reading]

theorem htReadReady_iff {s : State} :
    htReadReady s = true ↔ s.wakeFired = true ∧ (s.htState = .hold ∨ s.htState = .armed) := by
  simp [htReadReady]

/-- HT.STEP changes nothing outside the reading states (R130). -/
theorem HtStepEffect.reading_or_stay {l : Level} {s t : State} (h : HtStepEffect l s t) :
    s.htState.reading = true ∨ t = s := by
  cases h with
  | stay => exact .inr rfl
  | sample state | invalid state => exact .inl (by rw [state]; rfl)
  | hit target | valid target | miss target | timeout target =>
    exact .inl (reading_of_htTarget target)

/-- The other units leave ht_state, leave HTRX in a state that reads nothing, or start a read that was
ready, consuming the wake latency (R121, R124, R128). -/
theorem UnitEffect.htState_cases {s u : State} (h : UnitEffect s u) :
    u.htState = s.htState ∨ u.htState.reading = false ∨
      (htReadReady s = true ∧ u.wakeFired = false) := by
  cases h with
  | htStart | seqStart | htRelease => exact .inr (.inl rfl)
  | htRead ready | seqRead ready => exact .inr (.inr ⟨ready, rfl⟩)
  | command => left; rw [dispatch_frame]
  | cmdTake => left; rw [dispatch_frame]; rfl
  | _ => exact .inl rfl

/-- Settles O29: only HT.READ and SEQ.STEP start a read, both where it is ready. -/
theorem humidityReadStartsOnlyAfterWake : Obligations.HumidityReadStartsOnlyAfterWake := by
  intro i s t h off on
  obtain ⟨-, rfl⟩ | ⟨l, -, step⟩ | ⟨u, _, _, _, _, unit, rfl⟩ := exec_next h
  · cases on
  · obtain reading | rfl := step.reading_or_stay
    · exact absurd (off.symm.trans reading) Bool.false_ne_true
    · exact absurd (off.symm.trans on) Bool.false_ne_true
  · have starts : u.htState.reading = true := on
    obtain same | rest | ⟨ready, consumed⟩ := unit.htState_cases
    · rw [same, off] at starts
      cases starts
    · exact absurd (rest.symm.trans starts) Bool.false_ne_true
    · obtain ⟨fired, pending⟩ := htReadReady_iff.mp ready
      exact ⟨fired, pending, consumed⟩

theorem htStartTake_of_idle {s : State} (idle : s.htState = .idle) :
    htStartTake s = .accepted (htStartEffect s) := if_pos idle

theorem htReadTake_of_ready {s : State} (ready : htReadReady s = true) :
    htReadTake s = .accepted (htReadEffect s) := if_pos ready

/-- Settles O18: HT_HOLD is no reading state, so main level stays free. -/
theorem htStartAccepted : Obligations.HtStartAccepted := by
  intro s free idle
  have accepted : exec .htStart s = .next { htStartEffect s with opResp := .accepted } :=
    atPort_of_accepted free (htStartTake_of_idle idle)
  refine ⟨accepted, fun t h => ?_⟩
  cases accepted.symm.trans h
  obtain ⟨lcIdle, -, noPoll⟩ := mainBusy_eq_false.mp free
  exact mainBusy_eq_false.mpr ⟨lcIdle, rfl, noPoll⟩

/-- Settles O19: HT_HOLD is the state that enables HT.RELEASE. -/
theorem htReleaseReleasesTheLine : Obligations.HtReleaseReleasesTheLine :=
  fun _ hold => if_pos hold

/-- Settles O20: an armed timer enables WAKE.FIRE. -/
theorem wakeFireRecordsTheLatency : Obligations.WakeFireRecordsTheLatency :=
  fun _ armed => if_pos armed

/-- Settles O21: HT_W1 is a reading state, so main level is busy. -/
theorem htReadAccepted : Obligations.HtReadAccepted := by
  intro s free fired pending
  have ready : htReadReady s = true := htReadReady_iff.mpr ⟨fired, pending⟩
  have accepted : exec .htRead s = .next { htReadEffect s with opResp := .accepted } :=
    atPort_of_accepted free (htReadTake_of_ready ready)
  refine ⟨accepted, fun t h => ?_⟩
  cases accepted.symm.trans h
  exact mainBusy_of_reading rfl

end Sys2Proof.Machine

/-! PROOFS. The statements about spec/42_seq.md: TICK (R150), SEQ.STEP by th_state (R152, R153, R155), POLL and
the four phases of POLL.STEP (R160 to R165), and a cadence that yields a frame without a reading (R166). -/

namespace Sys2Proof.Machine

/-! ## TICK -/

theorem exec_tick_of_last {s : State} (last : s.cadCnt + 1 = s.cfg.cadThresh) :
    exec .tick s = .next { s with cadCnt := 0, sampleNow := true } := if_pos last

theorem exec_tick_of_below {s : State} (below : s.cadCnt + 1 < s.cfg.cadThresh) :
    exec .tick s = .next { s with cadCnt := s.cadCnt + 1 } := by
  have counted : bump s.cfg.cadThresh s.cadCnt = s.cadCnt + 1 := bump_of_lt (by omega)
  simp only [exec, execTick, if_neg (Nat.ne_of_lt below), counted]

/-- Settles O30: below its limit the counter does not wrap. -/
theorem tickCountsTheCadence : Obligations.TickCountsTheCadence := fun _ inRange =>
  ⟨exec_tick_of_last, fun more => exec_tick_of_below (by omega)⟩

/-- A run of ticks counts modulo CAD_THRESH and raises sample_now on reaching it (R150). -/
theorem runAll_ticks (n : Nat) {s : State} (inRange : s.cadCnt < s.cfg.cadThresh) :
    runAll (List.replicate n .tick) s = .next { s with
      cadCnt := (s.cadCnt + n) % s.cfg.cadThresh
      sampleNow := s.sampleNow || decide (s.cfg.cadThresh ≤ s.cadCnt + n) } := by
  induction n generalizing s with
  | zero => simp [runAll, Nat.mod_eq_of_lt inRange, Nat.not_le_of_lt inRange]
  | succ n ih =>
    rw [List.replicate_succ]
    by_cases last : s.cadCnt + 1 = s.cfg.cadThresh
    · have count : s.cadCnt + (n + 1) = s.cfg.cadThresh + n := by omega
      rw [runAll_cons (exec_tick_of_last last), ih (Nat.zero_lt_of_lt inRange)]
      simp [count]
    · have below : s.cadCnt + 1 < s.cfg.cadThresh := by omega
      have count : s.cadCnt + (n + 1) = s.cadCnt + 1 + n := by omega
      rw [runAll_cons (exec_tick_of_below below), ih below, count]

/-! ## SEQ.STEP -/

theorem seqStepTake_of_idle {s : State} (awaiting : s.thState = .awaitingWake)
    (idle : s.htState = .idle) :
    seqStepTake s = .accepted { htStartEffect s with thState := .waitingWake } := by
  simp only [seqStepTake, awaiting, htStartTake_of_idle idle, Taken.map]

theorem seqStepTake_of_ready {s : State} (waiting : s.thState = .waitingWake)
    (ready : htReadReady s = true) :
    seqStepTake s = .accepted { htReadEffect s with thState := .sampling } := by
  simp only [seqStepTake, waiting, ready, if_true]

theorem seqStepTake_of_not_ready {s : State} (waiting : s.thState = .waitingWake)
    (notReady : htReadReady s = false) : seqStepTake s = .accepted s := by
  simp [seqStepTake, waiting, notReady]

theorem seqStepTake_of_rest {s : State} (rest : s.thState = .waitingRest) :
    seqStepTake s = .accepted { s with
      restCnt := bump s.cfg.nRest s.restCnt
      thState := if s.restCnt + 1 = s.cfg.nRest then .awaitingWake else .waitingRest } := by
  simp only [seqStepTake, rest]

/-- Settles O31: the receiver's state decides. -/
theorem seqStepStartsTheWakeSequence : Obligations.SeqStepStartsTheWakeSequence :=
  fun _ free awaiting =>
    ⟨fun idle => atPort_of_accepted free (seqStepTake_of_idle awaiting idle),
      fun busy => atPort_of_declined free (seqStepTake_declined awaiting busy)⟩

/-- Settles O32: the read starts exactly when HT.READ may. -/
theorem seqStepReadsOnceAwake : Obligations.SeqStepReadsOnceAwake := by
  intro s free waiting
  rw [← htReadReady_iff]
  refine ⟨fun ready => ?_, fun notReady => ?_⟩
  · exact atPort_of_accepted free (seqStepTake_of_ready waiting ready)
  · exact atPort_of_accepted free (seqStepTake_of_not_ready waiting (Bool.eq_false_iff.mpr notReady))

/-- A poll of the rest before the last is counted (R155). -/
theorem exec_seqStep_of_rest_below {s : State} (free : mainBusy s = false)
    (rest : s.thState = .waitingRest) (below : s.restCnt + 1 < s.cfg.nRest) :
    exec .seqStep s = .next { s with opResp := .accepted, restCnt := s.restCnt + 1 } := by
  refine (atPort_of_accepted free (seqStepTake_of_rest rest)).trans ?_
  rw [bump_of_lt (by omega), if_neg (Nat.ne_of_lt below), ← rest]

/-- The last poll of the rest leaves it (R155). -/
theorem exec_seqStep_of_rest_last {s : State} (free : mainBusy s = false)
    (rest : s.thState = .waitingRest) (last : s.restCnt + 1 = s.cfg.nRest) :
    exec .seqStep s = .next { s with
      opResp := .accepted, restCnt := s.cfg.nRest, thState := .awaitingWake } := by
  refine (atPort_of_accepted free (seqStepTake_of_rest rest)).trans ?_
  rw [bump_of_succ_eq last, if_pos last]

/-- Polls of the rest before the last are counted one by one (R155). -/
theorem runAll_rest_below {n : Nat} {s : State} (free : mainBusy s = false)
    (rest : s.thState = .waitingRest) (pos : 0 < n) (below : s.restCnt + n < s.cfg.nRest) :
    runAll (List.replicate n .seqStep) s = .next { s with
      opResp := .accepted, restCnt := s.restCnt + n } := by
  induction n, pos using Nat.le_induction generalizing s with
  | base => exact (runAll_singleton _ _).trans (exec_seqStep_of_rest_below free rest below)
  | succ n pos ih =>
    have count : s.restCnt + 1 + n = s.restCnt + (n + 1) := by omega
    rw [List.replicate_succ, runAll_cons (exec_seqStep_of_rest_below free rest (by omega)), ← count]
    exact ih free rest (count.trans_lt below)

/-- The polls up to N_REST leave the rest (R155). -/
theorem runAll_rest {n : Nat} {s : State} (free : mainBusy s = false)
    (rest : s.thState = .waitingRest) (last : s.restCnt + (n + 1) = s.cfg.nRest) :
    runAll (List.replicate (n + 1) .seqStep) s = .next { s with
      opResp := .accepted, restCnt := s.cfg.nRest, thState := .awaitingWake } := by
  induction n generalizing s with
  | zero => exact (runAll_singleton _ _).trans (exec_seqStep_of_rest_last free rest last)
  | succ n ih =>
    rw [List.replicate_succ, runAll_cons (exec_seqStep_of_rest_below free rest (by omega))]
    exact ih free rest (by simp only; omega)

/-- Settles O33: every poll before the last is counted, and the last leaves the rest. -/
theorem seqStepCountsTheRest : Obligations.SeqStepCountsTheRest := by
  intro s free rest inRange
  refine ⟨exec_seqStep_of_rest_below free rest, exec_seqStep_of_rest_last free rest, fun entry => ⟨?_, ?_⟩⟩
  · intro n pos below
    have run := runAll_rest_below free rest pos (by omega)
    rwa [entry, Nat.zero_add] at run
  · obtain ⟨n, hn⟩ := Nat.exists_eq_succ_of_ne_zero (Nat.ne_zero_of_lt inRange)
    have run := runAll_rest (n := n) free rest (by omega)
    rwa [← Nat.succ_eq_add_one, ← hn] at run

/-! ## POLL -/

theorem exec_poll_of_running {s : State} (free : mainBusy s = false) (running : s.suspended = false) :
    exec .poll s = .next { s with opResp := .accepted, pollPhase := .seq } := by
  have take : pollTake s = .accepted { s with pollPhase := .seq } := by simp [pollTake, running]
  exact atPort_of_accepted free take

theorem exec_poll_of_suspended {s : State} (free : mainBusy s = false) (suspended : s.suspended = true) :
    exec .poll s = .next { s with opResp := .accepted } := by
  have take : pollTake s = .accepted s := by simp [pollTake, suspended]
  exact atPort_of_accepted free take

/-- Settles O35: the suspension decides. -/
theorem pollStartsTheMicroSequence : Obligations.PollStartsTheMicroSequence :=
  fun _ free => ⟨exec_poll_of_running free, exec_poll_of_suspended free⟩

/-! ## The phases of POLL.STEP -/

section
variable {s : State} (free : unitBusy s = false)
include free

theorem exec_pollStep_of_seq (phase : s.pollPhase = .seq) :
    exec .pollStep s = embed s (toPhase .lc) (seqStepTake s) := by
  simp [exec, execPollStep, free, phase]

theorem exec_pollStep_of_lc (phase : s.pollPhase = .lc) : exec .pollStep s = .next (pollLc s) := by
  simp [exec, execPollStep, free, phase]

theorem exec_pollStep_of_enc (phase : s.pollPhase = .enc) (valid : s.lcValid = true) :
    exec .pollStep s = embed s (toPhase .cmd) (fmtEncTake s) := by
  simp [exec, execPollStep, free, phase, valid]

theorem exec_pollStep_of_enc_invalid (phase : s.pollPhase = .enc) (invalid : s.lcValid = false) :
    exec .pollStep s = .next (toPhase .cmd s) := by
  simp [exec, execPollStep, free, phase, invalid]

theorem exec_pollStep_of_cmd (phase : s.pollPhase = .cmd) (eof : s.rxEof = true) :
    exec .pollStep s = embed s (toPhase .idle) (cmdTakeTake s) := by
  simp [exec, execPollStep, free, phase, eof]

theorem exec_pollStep_of_cmd_none (phase : s.pollPhase = .cmd) (noFrame : s.rxEof = false) :
    exec .pollStep s = .next (toPhase .idle s) := by
  simp [exec, execPollStep, free, phase, noFrame]

/-- With no unit busy, main level is free outside the micro-sequence (R51). -/
theorem mainBusy_toPhase_idle : mainBusy (toPhase .idle s) = false := by
  obtain ⟨lc, ht⟩ := unitBusy_eq_false.mp free
  exact mainBusy_eq_false.mpr ⟨lc, ht, rfl⟩

/-- An operation that neither reads nor writes poll_phase and does not write OP_RESP does in a POLL phase
what it does as a request on a free port, the response and the next phase aside (R161). -/
theorem exists_atPort_embed {w : OpWord} {take : State → Taken} (p : PollPhase)
    (phase : take (toPhase .idle s) = (take s).map (toPhase .idle))
    (resp : ∀ u, take s = .accepted u → u.opResp = s.opResp) (runs : ∀ f, take s ≠ .stopped f) :
    ∃ u, atPort w take (toPhase .idle s) = .next u ∧
      embed s (toPhase p) (take s) = .next { u with opResp := s.opResp, pollPhase := p } := by
  rw [atPort_of_free (mainBusy_toPhase_idle free), phase]
  cases taken : take s with
  | accepted t =>
    refine ⟨_, rfl, ?_⟩
    rw [← resp t taken]
    rfl
  | declined r e => exact ⟨_, rfl, rfl⟩
  | stopped f => exact absurd taken (runs f)

end

theorem seqStepTake_toPhase (p : PollPhase) (s : State) :
    seqStepTake (toPhase p s) = (seqStepTake s).map (toPhase p) := by
  obtain ⟨th, ht, h⟩ | ⟨th, ht, h⟩ | ⟨th, ready, h⟩ | ⟨th, ready, h⟩ | ⟨th, h⟩ | ⟨th, h⟩ :=
    seqStepTake_cases s <;> rw [h]
  · exact seqStepTake_of_idle th ht
  · exact seqStepTake_declined th ht
  · exact seqStepTake_of_ready th ready
  · exact seqStepTake_of_not_ready th ready
  · exact seqStepTake_of_sampling th
  · exact seqStepTake_of_rest th

theorem seqStepTake_opResp {s u : State} (h : seqStepTake s = .accepted u) : u.opResp = s.opResp := by
  obtain ⟨-, -, hc⟩ | ⟨-, -, hc⟩ | ⟨-, -, hc⟩ | ⟨-, -, hc⟩ | ⟨-, hc⟩ | ⟨-, hc⟩ := seqStepTake_cases s <;>
    cases hc.symm.trans h <;> rfl

/-- Settles O36: SEQ.STEP neither reads poll_phase nor writes OP_RESP. -/
theorem pollStepSequencerPhase : Obligations.PollStepSequencerPhase := by
  intro s free phase
  rw [exec_pollStep_of_seq free phase]
  exact exists_atPort_embed free .lc (seqStepTake_toPhase _ s) (fun _ => seqStepTake_opResp)
    (seqStepTake_ne_stopped s)

/-- The state in which a poll has started a load-cell read at POLL_GAIN (R163). -/
def polledRead (s : State) : State :=
  toPhase .enc (lcReadEffect s.cfg.pollGain { s with sampleNow := false })

theorem pollLc_of_due {s : State} (due : s.sampleNow = true) : pollLc s = polledRead s := if_pos due

theorem pollLc_of_not_due {s : State} (notDue : s.sampleNow = false) : pollLc s = toPhase .cmd s := by
  simp [pollLc, notDue]

/-- Settles O37: sample_now decides. -/
theorem pollStepLoadCellPhase : Obligations.PollStepLoadCellPhase := by
  intro s free phase
  rw [exec_pollStep_of_lc free phase]
  refine ⟨fun due => ?_, fun notDue => ?_⟩
  · rw [pollLc_of_due due]
    rfl
  · rw [pollLc_of_not_due notDue]
    rfl

theorem fmtEncTake_of_valid {s : State} (valid : s.lcValid = true) (idle : s.txBusy = false) :
    fmtEncTake s = .accepted (fmtEncEffect s) := by
  simp [fmtEncTake, valid, idle]

/-- The frame is made of the sample, the humidity registers and the parameters (R22). -/
theorem telemetryFrame_congr {s t : State} (hneg : s.lcNeg = t.lcNeg) (hmag : s.lcMag = t.lcMag)
    (hnew : s.htNew = t.htNew) (hfail : s.htFail = t.htFail) (hframe : s.htFrame = t.htFrame)
    (hcfg : s.cfg = t.cfg) : telemetryFrame s = telemetryFrame t := by
  rw [telemetryFrame, telemetryFrame, renderFields_congr hneg hmag hnew hframe hcfg, hnew, hfail, hcfg]

theorem fmtEncTake_toPhase (p : PollPhase) (s : State) :
    fmtEncTake (toPhase p s) = (fmtEncTake s).map (toPhase p) := by
  have frame : telemetryFrame (toPhase p s) = telemetryFrame s :=
    telemetryFrame_congr rfl rfl rfl rfl rfl rfl
  have effect : fmtEncEffect (toPhase p s) = toPhase p (fmtEncEffect s) := by
    rw [fmtEncEffect, frame]
    rfl
  unfold fmtEncTake
  rw [effect, apply_ite (Taken.map (toPhase p))]
  rfl

theorem fmtEncTake_opResp {s u : State} (h : fmtEncTake s = .accepted u) : u.opResp = s.opResp := by
  unfold fmtEncTake at h
  split at h <;> cases h
  rfl

/-- Settles O38: FMT.ENC neither reads poll_phase nor writes OP_RESP. -/
theorem pollStepEncodePhase : Obligations.PollStepEncodePhase := by
  intro s free phase
  refine ⟨fun valid => ?_, exec_pollStep_of_enc_invalid free phase⟩
  rw [exec_pollStep_of_enc free phase valid]
  exact exists_atPort_embed free .cmd (fmtEncTake_toPhase _ s) (fun _ => fmtEncTake_opResp)
    (fmtEncTake_ne_stopped s)

theorem dispatchAct_toPhase (p : PollPhase) (cls : ActClass) (letter : Byte) (pct : Option (BitVec 7))
    (s : State) : dispatchAct cls letter pct (toPhase p s) = toPhase p (dispatchAct cls letter pct s) := by
  cases pct <;> rfl

theorem dispatch_toPhase (p : PollPhase) (c d2 d1 d0 : Byte) (s : State) :
    dispatch c d2 d1 d0 (toPhase p s) = toPhase p (dispatch c d2 d1 d0 s) := by
  simp only [dispatch, apply_ite (toPhase p), cmdQEffect, cmdSEffect, cmdFEffect, cmdREffect, cmdGEffect,
    cmdMEffect, cmdNEffect, dispatchAct_toPhase]
  rfl

/-- An ended frame that is written whole is copied and dispatched (R205). -/
theorem cmdTakeTake_of_frame {s : State} {c d2 d1 d0 : Byte} (eof : s.rxEof = true)
    (frame : readFrame s = .ok (c, d2, d1, d0)) :
    cmdTakeTake s = .accepted (dispatch c d2 d1 d0 (cmdCopy c d2 d1 d0 s)) := by
  simp [cmdTakeTake, eof, frame]

/-- Settles O39: CMD.TAKE of a frame neither reads poll_phase nor writes OP_RESP. -/
theorem pollStepCommandPhase : Obligations.PollStepCommandPhase := by
  intro s free phase
  refine ⟨fun eof written => ?_, exec_pollStep_of_cmd_none free phase⟩
  obtain ⟨c, d2, d1, d0, frame⟩ := exists_readFrame_ok written
  have taken := cmdTakeTake_of_frame eof frame
  have takenIdle : cmdTakeTake (toPhase .idle s) = (cmdTakeTake s).map (toPhase .idle) := by
    rw [taken, cmdTakeTake_of_frame (s := toPhase .idle s) eof frame]
    exact congrArg Taken.accepted (dispatch_toPhase .idle c d2 d1 d0 (cmdCopy c d2 d1 d0 s))
  rw [exec_pollStep_of_cmd free phase eof]
  refine exists_atPort_embed free .idle takenIdle (fun u hu => ?_) (fun f hf => ?_)
  · cases taken.symm.trans hu
    rw [dispatch_frame]
    rfl
  · cases taken.symm.trans hf

/-! ## A cadence without a reading -/

/-- LC.FEED completes a read that waits for data ready with the fed word (R95, R107). -/
theorem runAll_lcFeed {s : State} (wait : s.lcState = .wait) (first : s.lcBitcnt = 0)
    (legal : gainLegal s.lcGain = true) (w : BitVec 24) :
    runAll (lcFeed s.cfg s.lcGain w) s =
      .next (lcComplete { lcPulses s.lcGain.toNat s with lcShreg := w }) := by
  have ready : exec (.lcStep s.cfg.drdyActive) s = .next { s with lcState := .shift } := by
    rw [exec_lcStep_of_wait wait, lcStepWait_of_ready rfl]
  have read := runAll_read (s := { s with lcState := .shift }) rfl first legal (msbDraws_length 24 w)
    (List.length_replicate (a := (0 : Level)))
  rw [shiftIn_word, List.map_append, ← lcDraws_eq_map, List.map_replicate] at read
  rw [lcFeed, runAll_cons ready]
  exact read

/-- The state in which the load-cell read of a poll has returned the word `w` (R106, R163). -/
def polledSample (w : BitVec 24) (s : State) : State :=
  lcComplete { lcPulses s.cfg.pollGain.toNat (polledRead s) with lcShreg := w }

/-- A sample is due in a block with parameters `c`, with no reading and no failure to show and nothing
streaming. -/
structure SampleDue (c : Config) (s : State) : Prop where
  cfg : s.cfg = c
  due : s.sampleNow = true
  noReading : s.htNew = false
  noFailure : s.htFail = false
  txIdle : s.txBusy = false

/-- A sequencer phase that starts no humidity read leaves the units free and the sample due (R152 to R155,
R162). -/
theorem exists_pollStep_seq {c : Config} {s : State} (pending : SampleDue c s) (free : unitBusy s = false)
    (phase : s.pollPhase = .seq) (notReady : ¬(s.thState = .waitingWake ∧ htReadReady s = true)) :
    ∃ u, exec .pollStep s = .next u ∧ SampleDue c u ∧ unitBusy u = false ∧ u.pollPhase = .lc := by
  obtain ⟨cfg, due, noReading, noFailure, txIdle⟩ := pending
  rw [exec_pollStep_of_seq free phase]
  obtain ⟨-, -, h⟩ | ⟨-, -, h⟩ | ⟨th, ready, -⟩ | ⟨-, -, h⟩ | ⟨-, h⟩ | ⟨-, h⟩ := seqStepTake_cases s
  case inr.inr.inl => exact absurd ⟨th, ready⟩ notReady
  case inl =>
    have hold : unitBusy (toPhase .lc { htStartEffect s with thState := .waitingWake }) = false :=
      unitBusy_eq_false.mpr ⟨(unitBusy_eq_false.mp free).1, rfl⟩
    rw [h]
    exact ⟨_, rfl, ⟨cfg, due, noReading, noFailure, txIdle⟩, hold, rfl⟩
  all_goals
    rw [h]
    exact ⟨_, rfl, ⟨cfg, due, noReading, noFailure, txIdle⟩, free, rfl⟩

/-- The phases PP_LC and PP_ENC read the load cell and format the frame of the word read (R163, R164). -/
theorem runAll_polledFrame {c : Config} {s : State} (pending : SampleDue c s) (free : unitBusy s = false)
    (phase : s.pollPhase = .lc) (legal : gainLegal c.pollGain = true) (w : BitVec 24) :
    runAll (.pollStep :: (lcFeed c c.pollGain w ++ [.pollStep])) s =
      .next (toPhase .cmd (fmtEncEffect (polledSample w s))) := by
  obtain ⟨rfl, due, -, -, txIdle⟩ := pending
  have start : exec .pollStep s = .next (polledRead s) := by
    rw [exec_pollStep_of_lc free phase, pollLc_of_due due]
  have read : runAll (lcFeed s.cfg s.cfg.pollGain w) (polledRead s) = .next (polledSample w s) :=
    runAll_lcFeed (s := polledRead s) rfl rfl legal w
  have freeAgain : unitBusy (polledSample w s) = false :=
    unitBusy_eq_false.mpr ⟨rfl, (unitBusy_eq_false.mp free).2⟩
  have encode : exec .pollStep (polledSample w s) =
      .next (toPhase .cmd (fmtEncEffect (polledSample w s))) := by
    rw [exec_pollStep_of_enc freeAgain rfl rfl, fmtEncTake_of_valid (s := polledSample w s) rfl txIdle, embed]
  rw [runAll_cons start, runAll_append _ _ _ _ read, runAll_singleton, encode]

/-- A receiver reads the word of a sample in its load field (R106, R181). -/
theorem loadFieldValue_sample {s : State} {w : BitVec 24} (neg : s.lcNeg = sampleNeg w)
    (mag : s.lcMag = sampleMag w) : loadFieldValue (loadField s) = some w.toInt := by
  have magNat : s.lcMag.toNat = w.toInt.natAbs := by rw [mag, sampleMag_toNat]
  have negInt : s.lcNeg = decide (w.toInt < 0) := by rw [neg, sampleNeg_eq_decide]
  have lo : -2 ^ 23 ≤ w.toInt := BitVec.le_toInt w
  have hi : w.toInt < 2 ^ 23 := BitVec.toInt_lt
  have value : lcValue s = w.toInt := by
    simp only [lcValue, magNat, negInt, decide_eq_true_eq]
    split <;> omega
  rw [← value]
  refine loadFieldValue_loadField (by omega) fun hn => ?_
  have : w.toInt < 0 := by simpa [negInt] using hn
  omega

/-- Without a reading or a failure the default layout shows placeholders (R91, R186). -/
theorem telemetryFrame_of_no_reading {s : State} (layout : s.cfg.layout = Config.default.layout)
    (width : s.cfg.tempW = 3) (noReading : s.htNew = false) (noFailure : s.htFail = false) :
    telemetryFrame s = loadField s ++ [s.cfg.sep, 0x58, 0x58, s.cfg.sep, 0x58, 0x58, 0x58, s.cfg.sep,
      s.cfg.term0, s.cfg.term1] := by
  obtain ⟨load, -, rest, -⟩ := defaultLayoutFrame s layout width
  rw [← load, ← rest noReading noFailure, List.take_append_drop]

/-- FMT.ENC leaves the frame in TX_BUF, byte by byte (R180). -/
theorem fmtEncEffect_txBuf_read {s : State} {a : Nat} (inside : a < (telemetryFrame s).length) :
    (fmtEncEffect s).txBuf.read a = (telemetryFrame s)[a]? := by
  have written := Memory.read_writeBlock_inside (telemetryFrame s) 0 s.txBuf a inside
  rwa [Nat.zero_add, ← List.getElem?_eq_getElem inside] at written

/-- CAD_THRESH ticks raise sample_now and change cad_cnt besides (R150). -/
theorem exists_runAll_cadence {s : State} (inRange : s.cadCnt < s.cfg.cadThresh) :
    ∃ n, runAll (List.replicate s.cfg.cadThresh .tick) s =
      .next { s with cadCnt := n, sampleNow := true } := by
  refine ⟨(s.cadCnt + s.cfg.cadThresh) % s.cfg.cadThresh, ?_⟩
  rw [runAll_ticks _ inRange, decide_eq_true (Nat.le_add_left _ _), Bool.or_true]

/-- Settles O44: the ticks and POLL lead to PP_SEQ with a sample due, the sequencer phase starts no read, and
the frame of the word read shows no reading. -/
theorem cadenceWithoutReadingYieldsPlaceholders : Obligations.CadenceWithoutReadingYieldsPlaceholders := by
  rintro s w load ⟨⟨legal, -⟩, -, -, ⟨-, -, inRange, -⟩, -⟩ free running noReading noFailure notAwake txIdle
    layout width rfl
  obtain ⟨-, -, gain⟩ := legal_limits legal
  have unitFree := unitBusy_of_mainBusy free
  have notReady : ¬(s.thState = .waitingWake ∧ htReadReady s = true) := fun ⟨th, ready⟩ =>
    notAwake ⟨th, (htReadReady_iff.mp ready).1⟩
  obtain ⟨n, ticks⟩ := exists_runAll_cadence inRange
  have poll := exec_poll_of_running (s := { s with cadCnt := n, sampleNow := true }) free running
  obtain ⟨u, seq, pending, freeAgain, phase⟩ := exists_pollStep_seq (c := s.cfg)
    (s := { s with cadCnt := n, sampleNow := true, opResp := .accepted, pollPhase := .seq })
    ⟨rfl, rfl, noReading, noFailure, txIdle⟩ unitFree rfl notReady
  have run := runAll_polledFrame pending freeAgain phase gain w
  have cfg : (polledSample w u).cfg = s.cfg := pending.cfg
  have shown := telemetryFrame_of_no_reading (s := polledSample w u) (by rw [cfg, layout])
    (by rw [cfg, width]) pending.noReading pending.noFailure
  have load : loadField (polledSample w u) = loadField { s with
      lcNeg := w.getLsbD 23, lcMag := if w.getLsbD 23 then ~~~w + 1 else w } := rfl
  rw [cfg, load] at shown
  refine ⟨toPhase .cmd (fmtEncEffect (polledSample w u)), ?_, rfl, rfl, loadField_length _,
    loadFieldValue_sample rfl rfl, fun a ha => ?_⟩
  · simp only [List.append_assoc, List.cons_append, List.nil_append]
    rw [runAll_append _ _ _ _ ticks, runAll_cons poll, runAll_cons seq, run]
  · have length : (telemetryFrame (polledSample w u)).length = 18 := by
      rw [shown, List.length_append, loadField_length]
      rfl
    rw [← shown]
    exact fmtEncEffect_txBuf_read (length ▸ ha)

end Sys2Proof.Machine

/-! PROOFS. The statements about spec/43_fmt.md: an accepted FMT.ENC (R180), the width and the characters of a
frame (R187), and TX.POP (R190). -/

namespace Sys2Proof.Machine

/-! ## FMT.ENC -/

/-- FMT.ENC writes no byte after the frame (R180). -/
theorem fmtEncEffect_txBuf_read_after {s : State} {a : Nat} (after : (telemetryFrame s).length ≤ a) :
    (fmtEncEffect s).txBuf.read a = s.txBuf.read a :=
  Memory.read_writeBlock_outside _ 0 s.txBuf a (.inr ((Nat.zero_add _).trans_le after))

/-- Settles O40: the request is accepted, and its effect on TX_BUF is read inside the frame and after it. -/
theorem fmtEncWritesTheFrame : Obligations.FmtEncWritesTheFrame := by
  intro s free valid idle
  have accepted : exec .fmtEnc s = .next { fmtEncEffect s with opResp := .accepted } :=
    atPort_of_accepted free (fmtEncTake_of_valid valid idle)
  refine ⟨_, accepted, rfl, fun a inside => ?_, fun a => fmtEncEffect_txBuf_read_after⟩
  exact (fmtEncEffect_txBuf_read inside).trans (List.getElem?_eq_getElem inside)

/-! ## The characters of a frame -/

/-- The digits come first among the characters of a frame, whatever the parameters (R187). -/
theorem asc_digit_mem_frameChars (c : Config) (n i : Nat) : asc (digit n i) ∈ frameChars c := by
  have digits : ∀ k < 10, asc k ∈ (frameChars Config.default).take 10 := by decide
  exact List.mem_of_mem_take (i := 10) (l := frameChars c) (digits _ (digit_lt n i))

theorem minus_mem_frameChars (c : Config) : 0x2D ∈ frameChars c := by simp [frameChars]

theorem dec_subset_frameChars (c : Config) (w n : Nat) : dec w n ⊆ frameChars c := by
  intro b hb
  obtain ⟨i, rfl⟩ := mem_dec hb
  exact asc_digit_mem_frameChars c n i

theorem set_subset_of_mem {bs chars : List Byte} {b : Byte} (hbs : bs ⊆ chars) (hb : b ∈ chars) (k : Nat) :
    bs.set k b ⊆ chars := by
  intro x hx
  obtain hx | rfl := List.mem_or_eq_of_mem_set hx
  · exact hbs hx
  · exact hb

/-- Placing the sign adds no character but the minus (R181). -/
theorem signAdjacent_subset {bs chars : List Byte} (hbs : bs ⊆ chars) (minus : 0x2D ∈ chars) :
    signAdjacent bs ⊆ chars := by
  unfold signAdjacent
  dsimp only
  split
  · exact set_subset_of_mem hbs minus _
  · exact hbs

theorem loadField_subset_frameChars (s : State) : loadField s ⊆ frameChars s.cfg := by
  have digits : dec loadW s.lcMag.toNat ⊆ frameChars s.cfg := dec_subset_frameChars _ _ _
  unfold loadField
  split
  · exact signAdjacent_subset digits (minus_mem_frameChars _)
  · exact digits

/-- At the width 3 a sign and digits (R184), at another width characters chosen from those of a frame. -/
theorem tempField_subset_frameChars (s : State) : tempField s ⊆ frameChars s.cfg := by
  unfold tempField
  dsimp only
  split
  · refine List.cons_subset.mpr ⟨?_, dec_subset_frameChars _ _ _⟩
    split
    · exact minus_mem_frameChars _
    · simp [frameChars]
  · intro b hb
    obtain ⟨i, -, rfl⟩ := List.mem_map.mp hb
    exact frameChar_mem _ _

theorem placeholders_subset_frameChars (c : Config) (err : Bool) (w : Nat) :
    placeholders err w ⊆ frameChars c := by
  have marks : List.replicate w placeholder ⊆ frameChars c :=
    List.replicate_subset.mpr (.inr (by simp [frameChars]))
  unfold placeholders
  split
  · exact set_subset_of_mem marks (by simp [frameChars]) 0
  · exact marks

/-- Each field shows characters of a frame only, in every case (R177). -/
theorem fieldBytes_subset_frameChars (s : State) (err : Bool) (f : Field) :
    fieldBytes s err f ⊆ frameChars s.cfg := by
  cases f <;> rw [fieldBytes]
  case load => exact loadField_subset_frameChars s
  case hum =>
    split
    · exact dec_subset_frameChars _ _ _
    · exact placeholders_subset_frameChars _ _ _
  case temp =>
    split
    · exact tempField_subset_frameChars s
    · exact placeholders_subset_frameChars _ _ _
  case sep | term => simp [frameChars]

theorem renderFields_subset_frameChars (s : State) (fs : List Field) :
    ∀ err, renderFields s err fs ⊆ frameChars s.cfg := by
  induction fs with
  | nil => exact fun _ => List.nil_subset _
  | cons f fs ih => exact fun err => List.append_subset.mpr ⟨fieldBytes_subset_frameChars s err f, ih _⟩

/-- Settles O41: the fields have their widths (`telemetryFrame_length`), and each shows characters of a frame only. -/
theorem telemetryFrameHasConstantWidth : Obligations.TelemetryFrameHasConstantWidth := fun s =>
  ⟨telemetryFrame_length s, fun _ hb => mem_frameChars (renderFields_subset_frameChars s _ _ hb)⟩

/-! ## TX.POP -/

/-- A written byte of a streamed frame goes to the transport (R190). -/
theorem exec_txPop_of_written {s : State} {b : Byte} (busy : s.txBusy = true)
    (inside : s.txIdx < s.cfg.frameW) (written : s.txBuf.read s.txIdx = some b) :
    exec .txPop s = .next { s with
      out := s.out ++ [.txByte b]
      txIdx := s.txIdx + 1
      txBusy := decide (s.txIdx + 1 ≠ s.cfg.frameW) } := by
  have byte : memRead .txBuf s.txIdx s = .ok b := memRead_ok.mpr ⟨inside, written⟩
  simp only [exec, execTxPop, if_pos busy, byte, bump_of_lt inside, State.emit]

/-- Settles O45: the frame goes on exactly when the next index is not its width. -/
theorem txPopStreamsTheNextByte : Obligations.TxPopStreamsTheNextByte := by
  intro s b busy inside written
  rw [exec_txPop_of_written busy inside written]
  refine ⟨fun more => ?_, fun last => ?_⟩
  · rw [decide_eq_true more.ne, ← busy]
  · simp only [last, ne_eq, not_true_eq_false, decide_false]

end Sys2Proof.Machine

/-! PROOFS. The statements about spec/44_crx.md: RX.BYTE (R200), the dispatch of a frame by CMD.TAKE (R205,
R206, R216) and the seven commands (R207 to R215). -/

namespace Sys2Proof.Machine

/-- CMDSET, character by character (R6, R200). -/
theorem inCmdSet_iff {b : Byte} : inCmdSet b = true ↔
    b = 0x51 ∨ b = 0x53 ∨ b = 0x46 ∨ b = 0x52 ∨ b = 0x47 ∨ b = 0x4D ∨ b = 0x4E := by
  simp only [inCmdSet, Bool.or_eq_true, decide_eq_true_eq, or_assoc]

/-! ## RX.BYTE -/

theorem exec_rxByte_of_inside {b : Byte} {s : State} (inside : (rxStoreIdx b s).toNat < cmdLen) :
    exec (.rxByte b) s = .next (rxByteEffect b s) := if_pos inside

/-- Settles O46: the byte goes to `rxStoreIdx`, which is inside the buffer, and the index after 3 is 4. -/
theorem rxByteStoresAndFrames : Obligations.RxByteStoresAndFrames := by
  intro s b a range ha
  have stored : rxStoreIdx b s = a := by simp only [rxStoreIdx, inCmdSet_iff, ha]
  have inside : a.toNat < cmdLen := by
    rw [ha]
    split
    · decide
    · exact range
  have last : a + 1 = 4 ↔ a = 3 := by bv_omega
  refine ⟨_, exec_rxByte_of_inside (stored.symm ▸ inside), ?_⟩
  simp only [rxByteEffect, stored, last]
  exact ⟨trivial, Memory.read_write_same _ _ _, fun k hk => Memory.read_write_ne hk _ _⟩

/-! ## CMD.TAKE -/

/-- The decoder and the dispatch answer alike: the command of a character of CMDSET, which the dispatch runs,
or an error (R90, R206, R216). -/
theorem decodeBytes_dispatch_cases (c d2 d1 d0 : Byte) :
    (∃ i, decodeBytes c d2 d1 d0 = .ok i ∧ ∀ s, exec i s = .next (dispatch c d2 d1 d0 s)) ∨
    (decodeBytes c d2 d1 d0 = .error (.unknownCommand c) ∧
      ∀ s, dispatch c d2 d1 d0 s = s.raise .malformedCommand) := by
  by_cases known : inCmdSet c = true
  · obtain rfl | rfl | rfl | rfl | rfl | rfl | rfl := inCmdSet_iff.mp known
    all_goals exact .inl ⟨_, rfl, fun _ => rfl⟩
  · simp only [inCmdSet_iff, not_or] at known
    right
    simp only [decodeBytes, dispatch, known, if_false, true_and, implies_true]

section
variable {c d2 d1 d0 : Byte}

theorem exec_of_decodeBytes_ok {i : Instr} (h : decodeBytes c d2 d1 d0 = .ok i) (s : State) :
    exec i s = .next (dispatch c d2 d1 d0 s) := by
  obtain ⟨_, hj, runs⟩ | ⟨hj, -⟩ := decodeBytes_dispatch_cases c d2 d1 d0 <;> cases hj.symm.trans h
  exact runs s

theorem dispatch_of_decodeBytes_error {e : DecodeError} (h : decodeBytes c d2 d1 d0 = .error e)
    (s : State) : dispatch c d2 d1 d0 s = s.raise .malformedCommand := by
  obtain ⟨_, hj, -⟩ | ⟨hj, raises⟩ := decodeBytes_dispatch_cases c d2 d1 d0 <;> cases hj.symm.trans h
  exact raises s

end

/-- A frame is held byte by byte, in the order of RX_BUF, and nothing else of CMD_HOLD changes (R205). -/
theorem cmdCopy_cmdHold_read (c d2 d1 d0 : Byte) (s : State) :
    (cmdCopy c d2 d1 d0 s).cmdHold.read 0 = some c ∧ (cmdCopy c d2 d1 d0 s).cmdHold.read 1 = some d2 ∧
      (cmdCopy c d2 d1 d0 s).cmdHold.read 2 = some d1 ∧ (cmdCopy c d2 d1 d0 s).cmdHold.read 3 = some d0 ∧
      ∀ k, 4 ≤ k → (cmdCopy c d2 d1 d0 s).cmdHold.read k = s.cmdHold.read k := by
  have inside := Memory.read_writeBlock_inside [c, d2, d1, d0] 0 s.cmdHold
  exact ⟨inside 0 (by simp), inside 1 (by simp), inside 2 (by simp), inside 3 (by simp),
    fun k hk => Memory.read_writeBlock_outside _ _ _ _ (.inr hk)⟩

theorem exec_cmdTake_of_no_frame {s : State} (free : mainBusy s = false) (noFrame : s.rxEof = false) :
    exec .cmdTake s = .next { s with opResp := .accepted } :=
  atPort_of_accepted free (by simp [cmdTakeTake, noFrame])

theorem exec_cmdTake_of_frame {s : State} {c d2 d1 d0 : Byte} (free : mainBusy s = false)
    (eof : s.rxEof = true) (frame : readFrame s = .ok (c, d2, d1, d0)) :
    exec .cmdTake s =
      .next { dispatch c d2 d1 d0 (cmdCopy c d2 d1 d0 s) with opResp := .accepted } :=
  atPort_of_accepted free (cmdTakeTake_of_frame eof frame)

/-- Settles O47: after the copy, the dispatch is what the decoder says of the four bytes. -/
theorem cmdTakeCopiesAndDispatches : Obligations.CmdTakeCopiesAndDispatches := by
  intro s free
  refine ⟨exec_cmdTake_of_no_frame free, fun c d2 d1 d0 eof h0 h1 h2 h3 => ?_⟩
  obtain ⟨hold0, hold1, hold2, hold3, rest⟩ := cmdCopy_cmdHold_read c d2 d1 d0 s
  rw [exec_cmdTake_of_frame free eof (readFrame_ok.mpr ⟨h0, h1, h2, h3⟩), decode, decodeFrame_ofBytes]
  refine ⟨cmdCopy c d2 d1 d0 s, rfl, hold0, hold1, hold2, hold3, rest, fun i ok => ?_, fun e error => ?_⟩
  · exact ⟨_, exec_of_decodeBytes_ok ok _, rfl⟩
  · rw [dispatch_of_decodeBytes_error error]
    rfl

/-! ## The setpoints -/

/-- The percentage written out is the model's: three digits, their number, and its bound (R12, R209). -/
theorem setpointPercentage_iff {d2 d1 d0 : Byte} {p : Nat} : setpointPercentage d2 d1 d0 p ↔
    (isDigit d2 && isDigit d1 && isDigit d0) = true ∧ p = 100 * dig d2 + 10 * dig d1 + dig d0 ∧
      p ≤ pctMax := by
  simp only [setpointPercentage, isDigit, dig, pctMax, Bool.and_eq_true, decide_eq_true_eq]
  bv_omega

theorem parsePct_of_percentage {d2 d1 d0 : Byte} {p : Nat} (h : setpointPercentage d2 d1 d0 p) :
    parsePct d2 d1 d0 = some (BitVec.ofNat 7 p) := by
  obtain ⟨digits, rfl, bound⟩ := setpointPercentage_iff.mp h
  rw [parsePct, if_pos digits]
  exact if_pos bound

theorem parsePct_of_no_percentage {d2 d1 d0 : Byte} (h : ∀ p, ¬setpointPercentage d2 d1 d0 p) :
    parsePct d2 d1 d0 = none := by
  by_cases digits : (isDigit d2 && isDigit d1 && isDigit d0) = true
  · rw [parsePct, if_pos digits]
    exact if_neg fun bound => h _ (setpointPercentage_iff.mpr ⟨digits, rfl, bound⟩)
  · rw [parsePct, if_neg digits]

/-- Settles O50: F, R and G are one dispatch but for their letter, with the percentage or without. -/
theorem setpointCommandsParseThePercentage : Obligations.SetpointCommandsParseThePercentage := by
  intro s d2 d1 d0 letter i hi
  have dispatched : exec i s = .next (dispatchAct .setpoint letter (parsePct d2 d1 d0) s) := by
    obtain ⟨rfl, rfl⟩ | ⟨rfl, rfl⟩ | ⟨rfl, rfl⟩ := hi <;> rfl
  rw [dispatched]
  refine ⟨fun p percentage => ?_, fun noPercentage => ?_⟩
  · rw [parsePct_of_percentage percentage]
    rfl
  · rw [parsePct_of_no_percentage noPercentage]
    exact ⟨_, rfl, dispatchAct_eq .setpoint letter none s⟩

/-! ## The commands without a percentage -/

/-- Settles O48: the dispatch of the class and the letter, then the suspension. -/
theorem commandQHaltsAndSuspends : Obligations.CommandQHaltsAndSuspends := fun s _ _ _ =>
  ⟨_, rfl, congrArg (fun t : State => { t with suspended := true }) (dispatchAct_eq .halt 0x51 none s)⟩

/-- Settles O49: each is the dispatch of its class and its letter. -/
theorem commandsStopAndSpray : Obligations.CommandsStopAndSpray := fun s _ _ _ =>
  ⟨⟨_, rfl, dispatchAct_eq .stop 0x53 none s⟩, ⟨_, rfl, dispatchAct_eq .sprayOn 0x4D none s⟩,
    ⟨_, rfl, dispatchAct_eq .sprayOff 0x4E none s⟩⟩

end Sys2Proof.Machine

/-! PROOFS. The statement about spec/60_exceptions.md: what an interrupt-level event leaves unchanged (R235, R237). -/

namespace Sys2Proof.Machine

/-- HT.RELEASE goes between two states in which HTRX reads nothing (R51, R124). -/
theorem htReleaseEffect_reading (s : State) :
    (htReleaseEffect s).htState.reading = s.htState.reading := by
  unfold htReleaseEffect
  dsimp only
  split
  next hold => rw [hold]; rfl
  next => rfl

/-- HT.RELEASE never makes main level busy or free (R237). -/
theorem mainBusy_htReleaseEffect (s : State) : mainBusy (htReleaseEffect s) = mainBusy s := by
  have units : unitBusy (htReleaseEffect s) = unitBusy s :=
    congrArg (decide (s.lcState ≠ .idle) || ·) (htReleaseEffect_reading s)
  exact congrArg (· || decide (s.pollPhase ≠ .idle)) units

/-- Settles O60: each effect is an update of the row's own registers; HT.RELEASE alone writes one that main_busy
depends on. -/
theorem interruptLevelFrame : Obligations.InterruptLevelFrame := by
  refine fun s t => ⟨fun tick => ?_, fun b rxByte => ?_, fun txPop => ?_, fun wakeFire => ?_, fun htRelease => ?_⟩
  · cases execTick_next tick
    exact ⟨rfl, rfl⟩
  · cases execRxByte_next rxByte
    exact ⟨rfl, rfl⟩
  · cases execTxPop_next txPop
    exact ⟨rfl, rfl⟩
  · cases execWakeFire_next wakeFire
    exact ⟨rfl, rfl⟩
  · cases execHtRelease_next htRelease
    exact ⟨rfl, mainBusy_htReleaseEffect s⟩

end Sys2Proof.Machine
